-- ==== Sys2Proof/Word.lean ====
section
/-! DEFINITION. The two access widths of the block (20_memory.md R68): the byte, which is the sole data currency
(00_scope.md R7 `BYTE`), and the 32-bit word of registers, keys and XOR blocks. -/

namespace Sys2Proof

/-- 8 bits (R7 `BYTE`). -/
abbrev Byte := BitVec 8

/-- 32 bits: a host register (R33), a length or cursor (R22), a key or an XOR block (R31). -/
abbrev Word := BitVec 32

end Sys2Proof
end

