-- ==== Sys2Proof/Config.lean ====
section
/-! DEFINITION. The constants of 00_scope.md R7, which no argument of the model changes, and the FREE VALUES: constants
without a body, so that no proof can learn what they are (logs 5, 6, 8, 12). -/

namespace Sys2Proof.Config

/-- `WINDOW` (R7): size of the history window and largest displacement. -/
def window : Nat := 4096

/-- `MIN_MATCH` (R7, R183). -/
def minMatch : Nat := 3

/-- `MAX_S` (R7): longest length of `REF_S`. -/
def maxS : Nat := 0x10

/-- `MAX_M` (R7): longest length of `REF_M`. -/
def maxM : Nat := 0x110

/-- `MAX_MATCH` (R7, R160): longest length of `REF_L` and forward search limit. -/
def maxMatch : Nat := 0x10110

/-- `BIAS_S` (R7, R105). -/
def biasS : Nat := 1

/-- `BIAS_M` (R7, R105; 90_conflicts.md C2). -/
def biasM : Nat := 0x11

/-- `BIAS_L` (R7, R105). -/
def biasL : Nat := 0x111

/-- `DISP_BIAS` (R7, R105). -/
def dispBias : Nat := 1

/-- `LZ_MAGIC` (R7, R92). -/
def lzMagic : Byte := 0x11

/-- `TAG_LZ` (R7, R110). -/
def tagLz : Byte := 0x17

/-- `TAG_RAW` (R7, R110). -/
def tagRaw : Byte := 0x04

/-- `KEY_MULT` (R7, R200). UNVERIFIED (log 21): the source states it once. -/
def keyMult : Word := 0x8083

/-- `BLOCK` (R7): XOR block size and padding unit. -/
def block : Nat := 4

/-- `GROUP` (R7): tokens per flag byte. -/
def group : Nat := 8

/-- `MIN_IN` (R7, R180). -/
def minIn : Nat := 2

/-- `MAX_IN` (R7, R180, R233). -/
def maxIn : Nat := 0xFFFFFF

/-- The four byte-addressed memories (10_state.md R40 to R43). -/
inductive Space where
  /-- `IN` (R40). -/
  | inp
  /-- `OUT` (R41). -/
  | out
  /-- `WORK` (R42). -/
  | work
  /-- `HIST` (R43). -/
  | hist
deriving DecidableEq, Repr

/-- FREE VALUE (log 6): what a byte of a memory reads as that nothing has written since that memory's content last became
unspecified (R41, R43, R45, R281). The arguments are the space, the generation of its content and the offset. -/
opaque unwritten : Space → Nat → Nat → Byte

/-- FREE VALUE (logs 5, 8, 12): the `k`-th value, of width `w`, that a rule calls unspecified. `k` is the State field `free`. -/
opaque freeValue : (w : Nat) → Nat → BitVec w

end Sys2Proof.Config
end

