-- ==== Sys2Proof/Syntax.lean ====
section
/-! DEFINITION. The instructions: one constructor for each of the 19 rows of `spec/opcode_table.json`. Operands are the
fields of the encodings of 30_encoding.md; the true lengths and displacements are assembled in `Machine/Operands.lean` (R105). -/

namespace Sys2Proof

/-- Tokens, stream records, envelope headers and host commands (30_encoding.md). -/
inductive Instr where
  /-- `LIT` (R100): one literal byte. -/
  | lit (data : BitVec 8)
  /-- `REF_M` (R102): `v = L - 0x11`, `d = D - 1`. -/
  | refM (v : BitVec 8) (d : BitVec 12)
  /-- `REF_L` (R103): `v = L - 0x111`, `d = D - 1`. -/
  | refL (v : BitVec 16) (d : BitVec 12)
  /-- `REF_S` (R101): `l = L - 1`, at least 2; `d = D - 1`. -/
  | refS (l : BitVec 4) (d : BitVec 12)
  /-- `FLAGS` (R94): the flag byte of a group. -/
  | flags (f : BitVec 8)
  /-- `LZHDR` (R92): declared size, not 0. -/
  | lzhdr (size : BitVec 24)
  /-- `LZHDRX` (R93): extended declared size, any value. -/
  | lzhdrx (xsize : BitVec 32)
  /-- `ENV17` (R110). -/
  | env17 (seed : BitVec 24)
  /-- `ENV04` (R110). -/
  | env04 (seed : BitVec 24)
  /-- `ENV_UNKNOWN` (R235): any tag but `0x17` and `0x04`. -/
  | envUnknown (tag : BitVec 8) (seed : BitVec 24)
  /-- `NOP` (R257): `OP` = 0. -/
  | nop
  /-- `LZ_DEC` (R251). The `MODE` bit is latched (R250) and ignored (R259). -/
  | lzDec (mode : BitVec 1)
  /-- `LZ_ENC` (R252). The `MODE` bit is latched (R250) and ignored (R259). -/
  | lzEnc (mode : BitVec 1)
  /-- `CT_DEC` (R253). The `MODE` bit is latched (R250) and ignored (R259). -/
  | ctDec (mode : BitVec 1)
  /-- `CT_ENC` with `MODE` = 0 (R254). -/
  | ctEncRaw
  /-- `CT_ENC` with `MODE` = 1 (R254). -/
  | ctEncCompressed
  /-- Reserved `OP` = 5 (R258). -/
  | reservedOp5 (mode : BitVec 1)
  /-- Reserved `OP` = 6 (R258). -/
  | reservedOp6 (mode : BitVec 1)
  /-- Reserved `OP` = 7 (R258). -/
  | reservedOp7 (mode : BitVec 1)
deriving DecidableEq, Repr

end Sys2Proof
end

