-- ==== Sys2Proof/WellFormed.lean ====
section
/-! DEFINITION. The constraints of the opcode table that the operand types do not carry. -/

namespace Sys2Proof

/-- `REF_S` has a high nibble of 2 to 15 (R101); `LZHDR` a size that is not 0 (R92: 0 selects `LZHDRX`); `ENV_UNKNOWN` a tag
other than the two known ones (R235). Every other operand value is legal (R93, R94, R100, R104, R110). -/
def Instr.wellFormed : Instr → Bool
  | .lit _ => true
  | .refM _ _ => true
  | .refL _ _ => true
  | .refS l _ => decide (2 ≤ l.toNat)
  | .flags _ => true
  | .lzhdr size => decide (size ≠ 0)
  | .lzhdrx _ => true
  | .env17 _ => true
  | .env04 _ => true
  | .envUnknown tag _ => decide (tag ≠ Config.tagLz ∧ tag ≠ Config.tagRaw)
  | .nop => true
  | .lzDec _ => true
  | .lzEnc _ => true
  | .ctDec _ => true
  | .ctEncRaw => true
  | .ctEncCompressed => true
  | .reservedOp5 _ => true
  | .reservedOp6 _ => true
  | .reservedOp7 _ => true

end Sys2Proof
end

