-- ==== Sys2Proof/Decode.lean ====
section
/-! DEFINITION. Byte order (20_memory.md R60, R61), the decoder and the encoder of 30_encoding.md. What a byte means depends on
what the engine expects next, so the decoder takes a context; it is total on any bytes and rejects by name. -/

namespace Sys2Proof

/-! ### Byte order -/

/-- `LE24` of 00_scope.md section 6 (R60): the first byte is the least significant. -/
def le24 (b0 b1 b2 : Byte) : BitVec 24 := b2 ++ b1 ++ b0

/-- `LE32` of 00_scope.md section 6 (R60). -/
def le32 (b0 b1 b2 b3 : Byte) : Word := b3 ++ b2 ++ b1 ++ b0

/-- Byte `k` of a word, byte 0 the least significant (R60, R63). -/
def byteOf {w : Nat} (x : BitVec w) (k : Nat) : Byte := x.extractLsb' (8 * k) 8

/-- The 3 bytes of a 24-bit integer, least significant first (R60). -/
def bytesLE24 (x : BitVec 24) : List Byte := [byteOf x 0, byteOf x 1, byteOf x 2]

/-- The 4 bytes of a word, least significant first (R60, R63). -/
def bytesLE32 (x : Word) : List Byte := [byteOf x 0, byteOf x 1, byteOf x 2, byteOf x 3]

/-- The high nibble `b[7:4]` of a byte. -/
def hiNibble (b : Byte) : BitVec 4 := b.extractLsb' 4 4

/-- The low nibble `b[3:0]` of a byte. -/
def loNibble (b : Byte) : BitVec 4 := b.extractLsb' 0 4

/-- Bits 11:8 of a stored displacement, which go into the earlier byte (R61). -/
def dispHi (d : BitVec 12) : BitVec 4 := d.extractLsb' 8 4

/-- Bits 7:0 of a stored displacement, the last byte of a token (R61). -/
def dispLo (d : BitVec 12) : Byte := d.extractLsb' 0 8

/-! ### The decoder -/

/-- What the engine expects next. -/
inductive DecodeContext where
  /-- A value written to `CMD`, as 4 bytes, least significant first (R115). -/
  | command
  /-- The first bytes of an archive (R110). -/
  | envelope
  /-- The first bytes of an LZ11 stream (R92, R93). -/
  | header
  /-- A flag byte: before the 1st, 9th, 17th, ... token (R94). -/
  | flags
  /-- A token whose flag bit is `isRef` (R100, R104). -/
  | token (isRef : Bool)
deriving DecidableEq, Repr

/-- Why bytes are no instruction. -/
inductive DecodeReject where
  /-- Fewer bytes than the record or token has (R220, R130, R131, R133 to R135). -/
  | short
  /-- The low byte of the LZ11 sub-header is not `0x11` (R107, R130). -/
  | badMagic
deriving DecidableEq, Repr

/-- What the decoder answers: an instruction and its length in bytes, or a reason. -/
inductive Decoded where
  | ok (i : Instr) (length : Nat)
  | reject (why : DecodeReject)
deriving DecidableEq, Repr

/-- The command word (R115): `OP` in bits 2:0, `MODE` in bit 8, every other bit ignored (R107). All 2^32 values are commands. -/
def decodeCommand (w : Word) : Instr :=
  let op : BitVec 3 := w.extractLsb' 0 3
  let mode : BitVec 1 := w.extractLsb' 8 1
  if op = 0 then .nop
  else if op = 1 then .lzDec mode
  else if op = 2 then .lzEnc mode
  else if op = 3 then .ctDec mode
  else if op = 4 then (if mode = 0 then .ctEncRaw else .ctEncCompressed)
  else if op = 5 then .reservedOp5 mode
  else if op = 6 then .reservedOp6 mode
  else .reservedOp7 mode

/-- The envelope header (R110, R222, R235). -/
def decodeEnvelope (tag : Byte) (seed : BitVec 24) : Instr :=
  if tag = Config.tagLz then .env17 seed
  else if tag = Config.tagRaw then .env04 seed
  else .envUnknown tag seed

/-- The LZ11 sub-header (R92, R93) in the order of the tests of R130 and R131: 4 bytes, the magic, the 24-bit size, and for
size 0 the 4 bytes more of the extended size. -/
def decodeHeader : List Byte → Decoded
  | b0 :: b1 :: b2 :: b3 :: rest =>
    if b0 = Config.lzMagic then
      if le24 b1 b2 b3 = 0 then
        match rest with
        | b4 :: b5 :: b6 :: b7 :: _ => .ok (.lzhdrx (le32 b4 b5 b6 b7)) 8
        | _ => .reject .short
      else .ok (.lzhdr (le24 b1 b2 b3)) 4
    else .reject .badMagic
  | _ => .reject .short

/-- A back-reference (R104, R135): the high nibble of the first byte selects `REF_M` (0), `REF_L` (1) or `REF_S` (any other),
with the fields of R101 to R103 (90_conflicts.md C1: 3, 4 and 2 bytes in all). -/
def decodeRef : List Byte → Decoded
  | [] => .reject .short
  | b1 :: rest =>
    if hiNibble b1 = 0 then
      match rest with
      | b2 :: b3 :: _ => .ok (.refM (loNibble b1 ++ hiNibble b2) (loNibble b2 ++ b3)) 3
      | _ => .reject .short
    else if hiNibble b1 = 1 then
      match rest with
      | b2 :: b3 :: b4 :: _ => .ok (.refL (loNibble b1 ++ b2 ++ hiNibble b3) (loNibble b3 ++ b4)) 4
      | _ => .reject .short
    else
      match rest with
      | b2 :: _ => .ok (.refS (hiNibble b1) (loNibble b1 ++ b2)) 2
      | _ => .reject .short

/-- The decoder: the instruction at the front of `bytes`, given what the engine expects. Bytes after the instruction are never
looked at (R109). -/
def decode : DecodeContext → List Byte → Decoded
  | .command, b0 :: b1 :: b2 :: b3 :: _ => .ok (decodeCommand (le32 b0 b1 b2 b3)) 4
  | .command, _ => .reject .short
  | .envelope, b0 :: b1 :: b2 :: b3 :: _ => .ok (decodeEnvelope b0 (le24 b1 b2 b3)) 4
  | .envelope, _ => .reject .short
  | .header, bytes => decodeHeader bytes
  | .flags, b :: _ => .ok (.flags b) 1
  | .flags, [] => .reject .short
  | .token false, b :: _ => .ok (.lit b) 1
  | .token false, [] => .reject .short
  | .token true, bytes => decodeRef bytes

/-! ### The encoder -/

/-- A command word from its two fields, every other bit 0 (R115). -/
def commandWord (op : BitVec 3) (mode : BitVec 1) : Word := op.setWidth 32 ||| (mode.setWidth 32 <<< 8)

/-- The bytes of an instruction, written from the same tables (R92 to R94, R100 to R103, R110, R115); for the tokens these are
also the emission rules R184 and R186 to R188, for the headers R181 and R230. -/
def encode : Instr → List Byte
  | .lit data => [data]
  | .refM v d => [(0 : BitVec 4) ++ hiNibble v, loNibble v ++ dispHi d, dispLo d]
  | .refL v d =>
    [(1 : BitVec 4) ++ v.extractLsb' 12 4, v.extractLsb' 4 8, v.extractLsb' 0 4 ++ dispHi d, dispLo d]
  | .refS l d => [l ++ dispHi d, dispLo d]
  | .flags f => [f]
  | .lzhdr size => Config.lzMagic :: bytesLE24 size
  | .lzhdrx xsize => Config.lzMagic :: 0 :: 0 :: 0 :: bytesLE32 xsize
  | .env17 seed => Config.tagLz :: bytesLE24 seed
  | .env04 seed => Config.tagRaw :: bytesLE24 seed
  | .envUnknown tag seed => tag :: bytesLE24 seed
  | .nop => bytesLE32 (commandWord 0 0)
  | .lzDec mode => bytesLE32 (commandWord 1 mode)
  | .lzEnc mode => bytesLE32 (commandWord 2 mode)
  | .ctDec mode => bytesLE32 (commandWord 3 mode)
  | .ctEncRaw => bytesLE32 (commandWord 4 0)
  | .ctEncCompressed => bytesLE32 (commandWord 4 1)
  | .reservedOp5 mode => bytesLE32 (commandWord 5 mode)
  | .reservedOp6 mode => bytesLE32 (commandWord 6 mode)
  | .reservedOp7 mode => bytesLE32 (commandWord 7 mode)

/-- The context in which an instruction is decoded. -/
def Instr.context : Instr → DecodeContext
  | .lit _ => .token false
  | .refM _ _ => .token true
  | .refL _ _ => .token true
  | .refS _ _ => .token true
  | .flags _ => .flags
  | .lzhdr _ => .header
  | .lzhdrx _ => .header
  | .env17 _ => .envelope
  | .env04 _ => .envelope
  | .envUnknown _ _ => .envelope
  | .nop => .command
  | .lzDec _ => .command
  | .lzEnc _ => .command
  | .ctDec _ => .command
  | .ctEncRaw => .command
  | .ctEncCompressed => .command
  | .reservedOp5 _ => .command
  | .reservedOp6 _ => .command
  | .reservedOp7 _ => .command

/-- The length of an instruction in bytes (R90). -/
def Instr.length : Instr → Nat
  | .lit _ => 1
  | .refM _ _ => 3
  | .refL _ _ => 4
  | .refS _ _ => 2
  | .flags _ => 1
  | .lzhdr _ => 4
  | .lzhdrx _ => 8
  | .env17 _ => 4
  | .env04 _ => 4
  | .envUnknown _ _ => 4
  | .nop => 4
  | .lzDec _ => 4
  | .lzEnc _ => 4
  | .ctDec _ => 4
  | .ctEncRaw => 4
  | .ctEncCompressed => 4
  | .reservedOp5 _ => 4
  | .reservedOp6 _ => 4
  | .reservedOp7 _ => 4

/-! ### Words of the opcode table -/

/-- The context in which a word of the opcode table is read. DESIGN CHOICE (log 13): the table's numbers do not say what the
engine expects, so the width and the bits must: 8 bits are a literal, 16 and 24 bits a back-reference; 32 bits are a command when
no ignored command bit is set, else what their low byte or top nibble fixes, else a command; 64 bits are a sub-header. -/
def tableContext (nbits w : Nat) : Option DecodeContext :=
  if nbits = 8 then some (.token false)
  else if nbits = 16 ∨ nbits = 24 then some (.token true)
  else if nbits = 32 then
    let low := w % 256
    if w < 8 ∨ (256 ≤ w ∧ w < 264) then some .command
    else if low = 0x11 then some .header
    else if low = 0x17 ∨ low = 0x04 then some .envelope
    else if w / 2 ^ 28 = 1 then some (.token true)
    else some .command
  else if nbits = 64 then some .header
  else none

/-- The low `k` bytes of `w`, least significant first. -/
def natBytesLE : Nat → Nat → List Byte
  | 0, _ => []
  | k + 1, w => BitVec.ofNat 8 w :: natBytesLE k (w / 256)

/-- A table word laid out as the stream holds it, with zero bytes after it up to the longest instruction (8 bytes): tokens are
numbered over `BE(byte1, ..., bytek)` (R61), every other record little-endian (R60). -/
def tableBytes (c : DecodeContext) (nbits w : Nat) : List Byte :=
  let bytes := natBytesLE (nbits / 8) w
  let ordered := match c with
    | .token _ => bytes.reverse
    | .command => bytes
    | .envelope => bytes
    | .header => bytes
    | .flags => bytes
  ordered ++ List.replicate (8 - nbits / 8) 0

/-- The instruction the decoder reads from an opcode-table word of `nbits` bits (log 13). -/
def decodeTableWord (nbits w : Nat) : Option Instr :=
  match tableContext nbits w with
  | none => none
  | some c =>
    match decode c (tableBytes c nbits w) with
    | .ok i _ => some i
    | .reject _ => none

end Sys2Proof
end

