-- ==== Sys2Proof/Machine/State.lean ====
section
/-! DEFINITION. The state of the block (10_state.md), as plain data, and its value after hardware reset (R45, R300). -/

namespace Sys2Proof.Machine

/-- The spec has no fault and no stuck state (93_implementation_defined.md, "`fault` and `stuck` are not used by this
hardware"): no step of this model faults. Errors are completions (60_exceptions.md R280). -/
inductive Fault where
deriving DecidableEq, Repr

/-- Why a step has no meaning. -/
inductive Refusal where
  /-- Raised by an arm of `exec` for an instruction without a meaning; safe. No arm raises it. -/
  | notModelled (mnemonic : String)
  /-- Raised when the host accesses a register offset other than 0x00, 0x04, 0x08, 0x0C and 0x10 (R33: "nothing else is
  defined"; 93_implementation_defined.md section 1: `refuse` at the model's interface); safe (log 10). -/
  | undefinedRegister (offset : Nat)
deriving DecidableEq, Repr

/-- The kinds of error (60_exceptions.md R270). -/
inductive ErrorKind where
  /-- R271. -/
  | invalidArchive
  /-- R272. -/
  | invalidData
  /-- R273. -/
  | streamTooShort
  /-- R274. -/
  | inputTooShort
  /-- R275. -/
  | inputTooLarge
  /-- R276: its code is reserved and nothing raises it. -/
  | invalidByteValue
  /-- R278. -/
  | badCommand
deriving DecidableEq, Repr

/-- The engine run state (R45): idle, or which rule of the running command is next. -/
inductive Phase where
  /-- No command runs. -/
  | idle
  /-- `CT_DEC`: the envelope header is due (R220, R221). -/
  | envelope
  /-- `CT_DEC`: the deciphering chain runs (R203). -/
  | decipher
  /-- The token decoder's sub-header is due (R130). -/
  | header
  /-- The token decoder's main loop (R132). -/
  | tokens
  /-- The token encoder's main loop (R182). -/
  | compress
  /-- `CT_ENC`: padding, seed and header are due (R229, R230). -/
  | pad
  /-- `CT_ENC`: the enciphering chain runs (R206). -/
  | encipher
deriving DecidableEq, Repr

/-- A byte-addressed memory: the cells written since its content last became unspecified, in ONE canonical form (`Memory.wf`:
offsets strictly rising), and the number of that generation of content. An unlisted offset holds no written value; a read of
it gives a free value of that generation (log 6). -/
structure Memory where
  cells : List Host.Cell
  generation : Nat
deriving DecidableEq, Repr

/-- What the host can do (70_reset_and_hazards.md R302, R300). -/
inductive HostAction where
  /-- A 32-bit write to the register at a byte offset (R33). -/
  | writeReg (offset : Nat) (value : BitVec 32)
  /-- A 32-bit read of the register at a byte offset (R33). -/
  | readReg (offset : Nat)
  /-- A write of one byte of `IN` (R40). -/
  | writeIn (offset : Nat) (value : BitVec 8)
  /-- A read of one byte of `OUT` (R41). -/
  | readOut (offset : Nat)
  /-- Hardware reset (R300). -/
  | reset
deriving DecidableEq, Repr

/-- Who makes the next move (log 2). -/
inductive Turn where
  /-- The engine takes one step. -/
  | engine
  /-- The host acts once. -/
  | host (a : HostAction)
  /-- The host waits until `STATUS.BUSY` = 0 (R302 steps 1 and 5): the engine steps until then. -/
  | await
deriving DecidableEq, Repr

/-- Everything 10_state.md gives the block. A register's docstring names its rule. -/
structure State where
  /-- `IN_LEN` (R35). -/
  inLen : BitVec 32
  /-- `STATUS` (R36): `BUSY` bit 0, `DONE` bit 1, `ERR` bit 2, every other bit 0. -/
  status : BitVec 32
  /-- `ERRCODE` (R37): `CODE` in bits 3:0, every other bit 0. -/
  errcode : BitVec 32
  /-- `OUT_LEN` (R38). -/
  outLen : BitVec 32
  /-- The latched `OP` (R250). -/
  op : BitVec 3
  /-- The latched `MODE` (R250). -/
  mode : BitVec 1
  /-- The latched `IN_LEN`, `ilen_cmd` (R250). -/
  ilenCmd : BitVec 32
  /-- The engine run state (R45). -/
  phase : Phase
  /-- `ip` (R23), the program counter of the token decoder. -/
  ip : BitVec 32
  /-- `ilen` (R23). -/
  ilen : BitVec 32
  /-- `size` (R24). -/
  size : BitVec 32
  /-- `olen` (R24). -/
  olen : BitVec 32
  /-- `flags` (R25). -/
  flags : BitVec 8
  /-- `mask` (R25). -/
  mask : BitVec 8
  /-- `len` (R26). -/
  len : BitVec 17
  /-- `disp` (R26). -/
  disp : BitVec 13
  /-- `wp` (R27). -/
  wp : BitVec 12
  /-- `pos` (R28). -/
  pos : BitVec 32
  /-- `n` (R28). -/
  n : BitVec 32
  /-- `mlen` (R28). -/
  mlen : BitVec 17
  /-- `mdisp` (R28). -/
  mdisp : BitVec 13
  /-- `gflags` (R29). -/
  gflags : BitVec 8
  /-- `gcount` (R29). -/
  gcount : BitVec 4
  /-- `wlen` (R29). -/
  wlen : BitVec 32
  /-- `GBUF` (R44). -/
  gbuf : List Byte
  /-- `tag` (R30). -/
  tag : BitVec 8
  /-- `seed` (R30). -/
  seed : BitVec 24
  /-- `|WORK|` of R221, `blen` of R228 and R229 (log 15). -/
  blen : BitVec 32
  /-- `key` (R31). -/
  key : BitVec 32
  /-- `xp` (R31). -/
  xp : BitVec 32
  /-- `IN` (R40). -/
  inp : Memory
  /-- `OUT` (R41). -/
  out : Memory
  /-- `WORK` (R42). -/
  work : Memory
  /-- `HIST` (R43). -/
  hist : Memory
  /-- The model's own: the number of the next free value (log 7). -/
  free : Nat
  /-- The model's own: what the host's last read returned (log 8). -/
  bus : BitVec 32
  /-- The model's own: who moves next (log 2); with no turn left the engine moves. -/
  turns : List Turn
deriving DecidableEq, Repr

/-- A memory of generation `g` in which nothing is written. -/
def Memory.empty (g : Nat) : Memory := { cells := [], generation := g }

/-- The machine right after hardware reset: the middle column of R45's table. A register that the table calls unspecified
holds 0 (DESIGN CHOICE, log 4); the memories hold nothing written (log 6). -/
def State.reset : State where
  inLen := 0
  status := 0
  errcode := 0
  outLen := 0
  op := 0
  mode := 0
  ilenCmd := 0
  phase := .idle
  ip := 0
  ilen := 0
  size := 0
  olen := 0
  flags := 0
  mask := 0
  len := 0
  disp := 0
  wp := 0
  pos := 0
  n := 0
  mlen := 0
  mdisp := 0
  gflags := 0
  gcount := 0
  wlen := 0
  gbuf := []
  tag := 0
  seed := 0
  blen := 0
  key := 0
  xp := 0
  inp := Memory.empty 0
  out := Memory.empty 0
  work := Memory.empty 0
  hist := Memory.empty 0
  free := 1
  bus := 0
  turns := []

end Sys2Proof.Machine
end

