-- ==== Sys2Proof/Machine/Ops.lean ====
section
/-! DEFINITION. The shared operations: memory access (20_memory.md), what the decoded stream is, starting a command (R250),
completing it (R255) and RAISING AN ERROR (R280), which is this block's only exception. -/

namespace Sys2Proof.Machine

/-! ### Memory (R64, R68, R69, R72) -/

/-- The byte written at offset `a`, if one is listed. -/
def Memory.lookup : List Host.Cell → Nat → Option Byte
  | [], _ => none
  | (k, v) :: rest, a => if k = a then some v else Memory.lookup rest a

/-- The byte at offset `a` of space `sp`: the last value written (R69); a free value where nothing is written (log 6). -/
def Memory.read (sp : Config.Space) (m : Memory) (a : Nat) : Byte :=
  match Memory.lookup m.cells a with
  | some v => v
  | none => Config.unwritten sp m.generation a

/-- The cells with the byte at offset `a` replaced or put in its place. -/
def Memory.insertCell : List Host.Cell → Nat → Byte → List Host.Cell
  | [], a, b => [(a, b)]
  | (k, v) :: rest, a, b =>
    if a < k then (a, b) :: (k, v) :: rest
    else if a = k then (a, b) :: rest
    else (k, v) :: Memory.insertCell rest a b

/-- A write of one byte. -/
def Memory.write (m : Memory) (a : Nat) (b : Byte) : Memory :=
  { m with cells := Memory.insertCell m.cells a b }

/-- Writes of consecutive bytes from offset `a` on, in order (R72). -/
def Memory.writeAll (m : Memory) (a : Nat) : List Byte → Memory
  | [] => m
  | b :: rest => Memory.writeAll (m.write a b) (a + 1) rest

/-- A 4-byte read: four byte reads, the lowest offset least significant (R63, R64). -/
def Memory.readWord (sp : Config.Space) (m : Memory) (a : Nat) : Word :=
  le32 (m.read sp a) (m.read sp (a + 1)) (m.read sp (a + 2)) (m.read sp (a + 3))

/-- A 4-byte write: four byte writes (R63, R64). -/
def Memory.writeWord (m : Memory) (a : Nat) (x : Word) : Memory := m.writeAll a (bytesLE32 x)

/-- `m[dst .. dst + k) <- src[start .. start + k)` (the order is unobservable: R72, log 23). -/
def Memory.copyFrom (src : Nat → Byte) (start dst : Nat) : Nat → Memory → Memory
  | 0, m => m
  | k + 1, m => Memory.copyFrom src start dst k (m.write (dst + k) (src (start + k)))

/-- Offsets strictly rise from `lo` on. -/
def Memory.risingFrom : Nat → List Host.Cell → Bool
  | _, [] => true
  | lo, (k, _) :: rest => decide (lo ≤ k) && Memory.risingFrom (k + 1) rest

/-- The canonical form of a memory. An unlisted offset holds no written value, so no entry can equal one. -/
def Memory.wf (m : Memory) : Bool := Memory.risingFrom 0 m.cells

/-! ### Registers of the host interface -/

/-- `OP` values (R115). -/
def opLzDec : BitVec 3 := 1
/-- `OP` values (R115). -/
def opLzEnc : BitVec 3 := 2
/-- `OP` values (R115). -/
def opCtDec : BitVec 3 := 3
/-- `OP` values (R115). -/
def opCtEnc : BitVec 3 := 4

/-- `STATUS` from its three fields, every other bit 0 (R33, R36). -/
def statusWord (busy done err : Bool) : Word :=
  (BitVec.ofBool err ++ BitVec.ofBool done ++ BitVec.ofBool busy).setWidth 32

/-- `STATUS.BUSY` (R33). -/
def State.busy (s : State) : Bool := s.status.getLsbD 0

/-- `STATUS.DONE` (R33). -/
def State.done (s : State) : Bool := s.status.getLsbD 1

/-- `STATUS.ERR` (R33). -/
def State.err (s : State) : Bool := s.status.getLsbD 2

/-- The numeric codes of R270. -/
def ErrorKind.code : ErrorKind → BitVec 4
  | .invalidArchive => 1
  | .invalidData => 2
  | .streamTooShort => 3
  | .inputTooShort => 4
  | .inputTooLarge => 5
  | .invalidByteValue => 6
  | .badCommand => 7

/-! ### Start, success and error of a command -/

/-- The start of a command (R250) with the working state as the right-hand column of R45's table gives it: cursors, counts and
flags 0, the output, `HIST`, `WORK` and `GBUF` without content, and a free value in every register that the table calls
unspecified or that the command's rule loads (log 5). `IN` and `IN_LEN` stay as the host left them. -/
def State.start (op : BitVec 3) (mode : BitVec 1) (s : State) : State :=
  { s with
    op := op, mode := mode, ilenCmd := s.inLen
    status := statusWord true false false, errcode := 0, outLen := 0
    ip := 0, olen := 0, wp := 0, mask := 0, flags := 0
    pos := 0, wlen := 0, gflags := 0, gcount := 0, gbuf := []
    size := Config.freeValue 32 s.free
    len := Config.freeValue 17 (s.free + 1)
    disp := Config.freeValue 13 (s.free + 2)
    mlen := Config.freeValue 17 (s.free + 3)
    mdisp := Config.freeValue 13 (s.free + 4)
    tag := Config.freeValue 8 (s.free + 5)
    seed := Config.freeValue 24 (s.free + 6)
    key := Config.freeValue 32 (s.free + 7)
    xp := Config.freeValue 32 (s.free + 8)
    blen := Config.freeValue 32 (s.free + 9)
    ilen := Config.freeValue 32 (s.free + 10)
    n := Config.freeValue 32 (s.free + 11)
    out := Memory.empty s.free
    work := Memory.empty s.free
    hist := Memory.empty s.free
    free := s.free + 12 }

/-- A write to `CMD` that starts a command: ignored entirely while `STATUS.BUSY` = 1 (R39, R260); else the start of the
command (R250) and then `run`, the beginning of the command's rule. -/
def State.startCommand (op : BitVec 3) (mode : BitVec 1) (run : State → State) (s : State) : State :=
  if s.busy then s else run (s.start op mode)

/-- Successful completion with a result of length `r` in `OUT` (R255). The working registers are dead and keep their last
values (log 24), and so do the latches `op`, `mode` and `ilen_cmd`, which R34 keeps only for the duration of the command: the
model's choice (log 27). -/
def State.complete (r : Word) (s : State) : State :=
  { s with outLen := r, errcode := 0, status := statusWord false true false, phase := .idle }

/-- `raise e` (R280): `ERRCODE` gets the code, `OUT_LEN` is 0, `STATUS` becomes `DONE` and `ERR`, the engine is idle, and the
content of `OUT` becomes unspecified (R41, R281). There is no handler and nothing is saved; there is no return from an error
either: the next `State.start` clears it (R283). That the working registers (log 24) and the latches `op`, `mode` and `ilen_cmd`
(log 27) keep their last values is the model's choice. -/
def State.raise (e : ErrorKind) (s : State) : State :=
  { s with
    errcode := e.code.setWidth 32, outLen := 0, status := statusWord false true true, phase := .idle
    out := Memory.empty s.free, free := s.free + 1 }

/-! ### The decoded stream (R23) -/

/-- `MemRead(S, a, 1)`: `S` is `WORK` under `CT_DEC` (R226) and `IN` under `LZ_DEC` (R251). -/
def State.streamByte (s : State) (a : Nat) : Byte :=
  if s.op = opCtDec then s.work.read .work a else s.inp.read .inp a

/-- `avail = ilen - ip` (00_scope.md section 6). -/
def State.avail (s : State) : Nat := s.ilen.toNat - s.ip.toNat

/-- The unread bytes from `ip` on, at most 8 (the longest record, R90). -/
def State.streamWindow (s : State) : List Byte :=
  (List.range (min 8 s.avail)).map fun i => s.streamByte (s.ip.toNat + i)

/-- The first bytes of the archive `A = IN[0 .. alen)` (R220), at most 4. -/
def State.archiveWindow (s : State) : List Byte :=
  (List.range (min 4 s.ilenCmd.toNat)).map fun i => s.inp.read .inp i

/-- `if ilen - ip < k then raise StreamTooShort`, else `f` (R130, R131, R133 to R135). -/
def State.requireBytes (k : Nat) (f : State → State) (s : State) : State :=
  if s.avail < k then s.raise .streamTooShort else f s

/-- `ip <- ip + k`. -/
def State.advance (k : Nat) (s : State) : State := { s with ip := s.ip + BitVec.ofNat 32 k }

end Sys2Proof.Machine
end

