-- ==== Sys2Proof/Machine/Cipher.lean ====
section
/-! DEFINITION. The XOR cipher engine and its keystream generator (43_xor_cipher.md). The engine has no encoding of its own: the
container rules run it, one block a step (log 1). -/

namespace Sys2Proof.Machine

/-- The initial key: `(0x8083 * zext_32(seed)) mod 2^32` (R200). -/
def initialKey (seed : BitVec 24) : Word := Config.keyMult * seed.setWidth 32

/-- Where the XOR region starts: 4 for tag `0x17`, 0 for tag `0x04` (R208, R224, R227, R231). -/
def regionStart (tag : Byte) : Word := if tag = Config.tagLz then 4 else 0

/-- `xp <- start; key <- (0x8083 * seed) mod 2^32` (R203, R205). -/
def State.startChain (s : State) : State := { s with xp := regionStart s.tag, key := initialKey s.seed }

/-- One block of `XDEC` (R203): `key <- key ^ p` carries the enciphered block (R312). -/
def State.decipherBlock (s : State) : State :=
  let p := s.work.readWord .work s.xp.toNat ^^^ s.key
  { s with work := s.work.writeWord s.xp.toNat p, key := s.key ^^^ p, xp := s.xp + 4 }

/-- One block of `XENC` (R206): `key <- c`. -/
def State.encipherBlock (s : State) : State :=
  let c := s.work.readWord .work s.xp.toNat ^^^ s.key
  { s with work := s.work.writeWord s.xp.toNat c, key := c, xp := s.xp + 4 }

end Sys2Proof.Machine
end

