-- ==== Sys2Proof/Machine/Operands.lean ====
section
/-! DEFINITION. Operand assembly (30_encoding.md R105) and its inverse, the choice of form (R106, R185). -/

namespace Sys2Proof.Machine

/-- `D = zext_13(dfield) + 1` (R105). -/
def displacement (d : BitVec 12) : BitVec 13 := d.setWidth 13 + BitVec.ofNat 13 Config.dispBias

/-- The length of a `REF_S`: 4-bit field, bias 1 (R101, R105). -/
def lengthS (l : BitVec 4) : BitVec 17 := l.setWidth 17 + BitVec.ofNat 17 Config.biasS

/-- The length of a `REF_M`: 8-bit field, bias 0x11 (R102, R105; 90_conflicts.md C2). -/
def lengthM (v : BitVec 8) : BitVec 17 := v.setWidth 17 + BitVec.ofNat 17 Config.biasM

/-- The length of a `REF_L`: 16-bit field, bias 0x111 (R103, R105). -/
def lengthL (v : BitVec 16) : BitVec 17 := v.setWidth 17 + BitVec.ofNat 17 Config.biasL

/-- The stored displacement `d = D - 1` (R186 to R188). -/
def displacementField (disp : BitVec 13) : BitVec 12 := (disp - BitVec.ofNat 13 Config.dispBias).setWidth 12

/-- The back-reference token for a length and a displacement, by length class (R106, R119, R185): above 0x110 `REF_L`, above
0x10 `REF_M`, else `REF_S`. -/
def refToken (len : BitVec 17) (disp : BitVec 13) : Instr :=
  if Config.maxM < len.toNat then
    .refL ((len - BitVec.ofNat 17 Config.biasL).setWidth 16) (displacementField disp)
  else if Config.maxS < len.toNat then
    .refM ((len - BitVec.ofNat 17 Config.biasM).setWidth 8) (displacementField disp)
  else .refS ((len - BitVec.ofNat 17 Config.biasS).setWidth 4) (displacementField disp)

end Sys2Proof.Machine
end

