-- ==== Sys2Proof/Machine/Flags.lean ====
section
/-! DEFINITION. The flag-like state: the decoder's `flags` and `mask` (10_state.md R25, 40_lz11_token_decoder.md R133) and the
encoder's `gflags` (R29, R189). -/

namespace Sys2Proof.Machine

/-- `isref <- (flags & mask) != 0` (R133): bit 7 classifies the first token of a group (R62). -/
def State.isRef (s : State) : Bool := decide (s.flags &&& s.mask ≠ 0)

/-- `mask <- mask >> 1` (R133). -/
def State.classified (s : State) : State := { s with mask := s.mask >>> 1 }

/-- `flags <- f; mask <- 0x80` (R133). -/
def State.loadFlags (f : BitVec 8) (s : State) : State := { s with flags := f, mask := 0x80 }

/-- `gflags | (0x80 >> gcount)` for a back-reference, `gflags` for a literal (R189). -/
def groupFlags (gflags : BitVec 8) (gcount : BitVec 4) (isRef : Bool) : BitVec 8 :=
  if isRef then gflags ||| ((0x80 : BitVec 8) >>> gcount.toNat) else gflags

end Sys2Proof.Machine
end

