-- ==== Sys2Proof/Machine/Match.lean ====
section
/-! DEFINITION. The LZ11 match detector (41_lz11_match_detector.md), defined by its result (R168), by brute force over the
window. `x` is the compressor's input. -/

namespace Sys2Proof.Machine

/-- `mlen(d)` (R162) from index `i` on, with `k` more indices allowed: how far `x` at `pos` equals `x` at `pos - d`. The source
index may pass `pos` (R163, R314). -/
def matchLength (x : Nat → Byte) (pos d : Nat) : Nat → Nat → Nat
  | 0, i => i
  | k + 1, i => if x (pos + i) = x (pos - d + i) then matchLength x pos d k (i + 1) else i

/-- The longest match over the displacements 1 to `c`, and the smallest displacement that reaches it (R164, R165); (0, 0) if no
candidate matches a byte. -/
def bestMatch (x : Nat → Byte) (pos maxlen : Nat) : Nat → Nat × Nat
  | 0 => (0, 0)
  | c + 1 =>
    let best := bestMatch x pos maxlen c
    let m := matchLength x pos (c + 1) maxlen 0
    if best.1 < m then (m, c + 1) else best

/-- The forward limit `maxlen = min(n - pos, 0x10110)` (R160). -/
def forwardLimit (n pos : Nat) : Nat := min (n - pos) Config.maxMatch

/-- The number of candidate displacements, `min(pos, 4096)` (R161). -/
def candidates (pos : Nat) : Nat := min pos Config.window

/-- The detector's result at `pos` for the input `IN[0 .. n)` (R160 to R165). -/
def State.findMatch (s : State) : Nat × Nat :=
  bestMatch (fun a => s.inp.read .inp a) s.pos.toNat (forwardLimit s.n.toNat s.pos.toNat) (candidates s.pos.toNat)

/-- The detector writes `mlen` and `mdisp` (R164, R165); with `mlen` = 0, `mdisp` is unspecified: a free value (log 12). -/
def State.detect (s : State) : State :=
  if s.findMatch.1 = 0 then { s with mlen := 0, mdisp := Config.freeValue 13 s.free, free := s.free + 1 }
  else { s with mlen := BitVec.ofNat 17 s.findMatch.1, mdisp := BitVec.ofNat 13 s.findMatch.2 }

end Sys2Proof.Machine
end

