-- ==== Sys2Proof/Machine/Encoder.lean ====
section
/-! DEFINITION. The LZ11 token encoder (42_lz11_token_encoder.md R180 to R192). It has no fetched instructions: `LZ_ENC` and
`CT_ENC` run it, one token a step (log 1). -/

namespace Sys2Proof.Machine

/-- `emit(bytes)`: append to the output stream, which is `OUT` under `LZ_ENC` and `WORK` under `CT_ENC`. -/
def State.emit (bytes : List Byte) (s : State) : State :=
  if s.op = opLzEnc then
    { s with out := s.out.writeAll s.wlen.toNat bytes, wlen := s.wlen + BitVec.ofNat 32 bytes.length }
  else { s with work := s.work.writeAll s.wlen.toNat bytes, wlen := s.wlen + BitVec.ofNat 32 bytes.length }

/-- Start (R180, R181): the preconditions, the initial state and the sub-header. -/
def State.startEncoder (s : State) : State :=
  let s := { s with n := s.ilenCmd }
  if s.n.toNat < Config.minIn then s.raise .inputTooShort
  else if Config.maxIn < s.n.toNat then s.raise .inputTooLarge
  else
    { s with pos := 0, wlen := 0, gflags := 0, gcount := 0, gbuf := [], phase := .compress }.emit
      (encode (.lzhdr (s.n.setWidth 24)))

/-- The flush of a group (R190): the flag byte, then the buffered tokens (R313). -/
def State.flush (s : State) : State :=
  { (s.emit [s.gflags]).emit s.gbuf with gflags := 0, gcount := 0, gbuf := [] }

/-- A token enters its group (R189); the eighth flushes it (R190). -/
def State.account (token : List Byte) (isRef : Bool) (s : State) : State :=
  let s := { s with
    gflags := groupFlags s.gflags s.gcount isRef, gbuf := s.gbuf ++ token, gcount := s.gcount + 1 }
  if s.gcount.toNat = Config.group then s.flush else s

/-- The token for the detector's result (R183): a literal (R184) for a length below 3, else a back-reference (R185). -/
def State.emitToken (s : State) : State :=
  if s.mlen.toNat < Config.minMatch then
    { s with pos := s.pos + 1 }.account (encode (.lit (s.inp.read .inp s.pos.toNat))) false
  else { s with pos := s.pos + s.mlen.setWidth 32 }.account (encode (refToken s.mlen s.mdisp)) true

/-- The end of compression: the final flush (R191), then the result of `LZ_ENC` (R192, R252) or the body of `CT_ENC` (R228). -/
def State.finishEncoder (s : State) : State :=
  let s := if s.gcount = 0 then s else s.flush
  if s.op = opLzEnc then s.complete s.wlen else { s with blen := s.wlen, phase := .pad }

/-- One turn of the loop of R182. -/
def State.compressStep (s : State) : State :=
  if s.pos.toNat < s.n.toNat then s.detect.emitToken else s.finishEncoder

end Sys2Proof.Machine
end

