-- ==== Sys2Proof/Machine/Container.lean ====
section
/-! DEFINITION. Encoding an archive (44_container.md R228 to R233): the steps of `CT_ENC`. -/

namespace Sys2Proof.Machine

/-- The number of pad bytes (R229): to the least multiple of 4 not below `blen`. -/
def padCount (blen : Nat) : Nat := (Config.block - blen % Config.block) % Config.block

/-- `raw` mode's body (R228, R233): the payload unchanged, refused when the seed cannot hold its length. -/
def State.loadRaw (s : State) : State :=
  if Config.maxIn < s.ilenCmd.toNat then s.raise .inputTooLarge
  else { s with
    work := Memory.copyFrom (fun a => s.inp.read .inp a) 0 0 s.ilenCmd.toNat s.work
    blen := s.ilenCmd, phase := .pad }

/-- Padding and seed (R229), tag (R230), and the start of the chain (R205, R231). -/
def State.padStep (s : State) : State :=
  let padn := padCount s.blen.toNat
  { { s with
      work := s.work.writeAll s.blen.toNat (List.replicate padn 0)
      blen := s.blen + BitVec.ofNat 32 padn
      seed := s.ilenCmd.setWidth 24
      tag := if s.mode = 1 then Config.tagLz else Config.tagRaw }.startChain with phase := .encipher }

/-- The 4 header bytes (R230). -/
def State.headerBytes (s : State) : List Byte :=
  if s.tag = Config.tagLz then encode (.env17 s.seed) else encode (.env04 s.seed)

/-- The archive (R232): the header and then the transformed, padded body. -/
def State.returnArchive (s : State) : State :=
  { s with
    out := Memory.copyFrom (fun a => s.work.read .work a) 0 4 s.blen.toNat
      (s.out.writeAll 0 s.headerBytes) }.complete (s.blen + 4)

/-- One step of the enciphering chain (R206), or the result when no block is left (R232). -/
def State.encipherStep (s : State) : State :=
  if s.xp.toNat < s.blen.toNat then s.encipherBlock else s.returnArchive

end Sys2Proof.Machine
end

