-- ==== Sys2Proof/Machine/Tokens.lean ====
section
/-! DEFINITION. The token decoder's meanings (40_lz11_token_decoder.md R133 to R140): `FLAGS`, `LIT`, `REF_S`, `REF_M`, `REF_L`. -/

namespace Sys2Proof.Machine

/-- Append a produced byte to `OUT` and to `HIST` (R134, R140): `olen` and `wp` advance, `wp` modulo 4096 (R27). -/
def State.produce (b : Byte) (s : State) : State :=
  { s with
    out := s.out.write s.olen.toNat b, hist := s.hist.write s.wp.toNat b
    olen := s.olen + 1, wp := s.wp + 1 }

/-- `MemRead(HIST, (wp - disp) mod 4096, 1)` (R140). -/
def State.historyByte (s : State) : Byte := s.hist.read .hist (s.wp - s.disp.setWidth 12).toNat

/-- The copy (R140), `k` iterations at most: byte by byte, each reading before it writes (R70, R310, R311), and ending when the
output reaches the declared size (R145, R316; 90_conflicts.md C5). -/
def State.copyBytes : Nat → State → State
  | 0, s => s
  | k + 1, s => if s.olen.toNat < s.size.toNat then State.copyBytes k (s.produce s.historyByte) else s

/-- `len` and `disp` of the back-reference being executed (R26, R136 to R138). -/
def State.setOperands (len : BitVec 17) (disp : BitVec 13) (s : State) : State := { s with len := len, disp := disp }

/-- A back-reference of `k` bytes (R135): the bytes must be there; then the displacement check (R139) and the copy (R140). -/
def State.backReference (k : Nat) (len : BitVec 17) (disp : BitVec 13) (s : State) : State :=
  s.requireBytes k fun s =>
    let s := (s.advance k).setOperands len disp
    if s.olen.toNat < s.disp.toNat then s.raise .invalidData else s.copyBytes s.len.toNat

/-- `FLAGS` (R133): the flag byte of a new group. -/
def execFlags (f : BitVec 8) (s : State) : Host.Outcome State Fault Refusal :=
  .next (s.requireBytes 1 fun s => (s.loadFlags f).advance 1)

/-- `LIT` (R134). -/
def execLit (data : BitVec 8) (s : State) : Host.Outcome State Fault Refusal :=
  .next (s.requireBytes 1 fun s => (s.advance 1).produce data)

/-- `REF_S` (R136). -/
def execRefS (l : BitVec 4) (d : BitVec 12) (s : State) : Host.Outcome State Fault Refusal :=
  .next (s.backReference 2 (lengthS l) (displacement d))

/-- `REF_M` (R137). -/
def execRefM (v : BitVec 8) (d : BitVec 12) (s : State) : Host.Outcome State Fault Refusal :=
  .next (s.backReference 3 (lengthM v) (displacement d))

/-- `REF_L` (R138). -/
def execRefL (v : BitVec 16) (d : BitVec 12) (s : State) : Host.Outcome State Fault Refusal :=
  .next (s.backReference 4 (lengthL v) (displacement d))

end Sys2Proof.Machine
end

