-- ==== Sys2Proof/Machine/Headers.lean ====
section
/-! DEFINITION. The start of token decoding (40_lz11_token_decoder.md R130, R131): `LZHDR` and `LZHDRX`. -/

namespace Sys2Proof.Machine

/-- `ip <- 0; olen <- 0; wp <- 0; mask <- 0; flags <- 0` (R130). -/
def State.decoderInit (s : State) : State := { s with ip := 0, olen := 0, wp := 0, mask := 0, flags := 0 }

/-- Hand the stream of length `ilen` to the token decoder (R130, R226, R251): its sub-header is due. -/
def State.startDecoder (ilen : Word) (s : State) : State := { s.decoderInit with ilen := ilen, phase := .header }

/-- A sub-header of `k` bytes declares `size` (R130, R131); the main loop follows (R132). -/
def State.declareSize (k : Nat) (size : Word) (s : State) : State :=
  s.decoderInit.requireBytes k fun s => { s.advance k with size := size, phase := .tokens }

/-- `LZHDR` (R130): `size <- zext_32(h[31:8])`. -/
def execLzhdr (size : BitVec 24) (s : State) : Host.Outcome State Fault Refusal :=
  .next (s.declareSize 4 (size.setWidth 32))

/-- `LZHDRX` (R131): the size is the second word. -/
def execLzhdrx (xsize : BitVec 32) (s : State) : Host.Outcome State Fault Refusal :=
  .next (s.declareSize 8 xsize)

end Sys2Proof.Machine
end

