-- ==== Sys2Proof/Machine/Envelope.lean ====
section
/-! DEFINITION. Decoding an archive (44_container.md R220 to R227, R235): `ENV17`, `ENV04`, `ENV_UNKNOWN` and the steps of
`CT_DEC` after them. -/

namespace Sys2Proof.Machine

/-- The header parse (R220, R221): the archive must hold a header; `tag` and `seed` are its fields and `WORK` gets the rest. -/
def State.openArchive (tag : Byte) (seed : BitVec 24) (f : State → State) (s : State) : State :=
  if s.ilenCmd.toNat < 4 then s.raise .invalidArchive
  else f { s with
    tag := tag, seed := seed, blen := s.ilenCmd - 4
    work := Memory.copyFrom (fun a => s.inp.read .inp a) 4 0 (s.ilenCmd.toNat - 4) s.work }

/-- The deciphering chain starts if `WORK` is a whole number of blocks (R224, R227, R67), else `InvalidArchive`. -/
def State.startDecipher (s : State) : State :=
  if s.blen.toNat % Config.block ≠ 0 then s.raise .invalidArchive else { s.startChain with phase := .decipher }

/-- `ENV17` (R221 to R224): the LZ11 magic must stand in clear (R223); the seed is compared with nothing (R225). -/
def execEnv17 (seed : BitVec 24) (s : State) : Host.Outcome State Fault Refusal :=
  .next (s.openArchive Config.tagLz seed fun s =>
    if s.blen.toNat < 1 ∨ s.work.read .work 0 ≠ Config.lzMagic then s.raise .invalidArchive else s.startDecipher)

/-- `ENV04` (R221, R222, R227): the seed must equal the number of bytes after the header. -/
def execEnv04 (seed : BitVec 24) (s : State) : Host.Outcome State Fault Refusal :=
  .next (s.openArchive Config.tagRaw seed fun s =>
    if s.seed.toNat ≠ s.blen.toNat then s.raise .invalidArchive else s.startDecipher)

/-- `ENV_UNKNOWN` (R222, R235): any other tag fails. -/
def execEnvUnknown (tag : BitVec 8) (seed : BitVec 24) (s : State) : Host.Outcome State Fault Refusal :=
  .next (s.openArchive tag seed fun s => s.raise .invalidArchive)

/-- A raw archive's result is the whole of `WORK` (R227). -/
def State.returnWork (s : State) : State :=
  { s with out := Memory.copyFrom (fun a => s.work.read .work a) 0 0 s.blen.toNat s.out }.complete s.blen

/-- One step of `CT_DEC` after the header: a block of the chain while there is one (R203); then, for tag `0x17`, the token
decoder on `WORK` (R226), and for tag `0x04` the result (R227). The whole chain is reversed first (R75, R315). -/
def State.decipherStep (s : State) : State :=
  if s.xp.toNat < s.blen.toNat then s.decipherBlock
  else if s.tag = Config.tagLz then s.startDecoder s.blen
  else s.returnWork

end Sys2Proof.Machine
end

