-- ==== Sys2Proof/Machine/Commands.lean ====
section
/-! DEFINITION. The host commands (45_host_commands.md). A command's meaning is the write to `CMD`: it starts the command (R250)
and runs its rule up to the point where the engine steps on by itself (log 1). -/

namespace Sys2Proof.Machine

/-- `NOP` (R257): nothing at all. -/
def execNop (s : State) : Host.Outcome State Fault Refusal := .next s

/-- `LZ_DEC` (R251): the token decoder on `IN[0 .. ilen_cmd)`. -/
def execLzDec (mode : BitVec 1) (s : State) : Host.Outcome State Fault Refusal :=
  .next (s.startCommand opLzDec mode fun s => s.startDecoder s.ilenCmd)

/-- `LZ_ENC` (R252): the token encoder on `IN[0 .. ilen_cmd)`. -/
def execLzEnc (mode : BitVec 1) (s : State) : Host.Outcome State Fault Refusal :=
  .next (s.startCommand opLzEnc mode State.startEncoder)

/-- `CT_DEC` (R253): the envelope header is due. -/
def execCtDec (mode : BitVec 1) (s : State) : Host.Outcome State Fault Refusal :=
  .next (s.startCommand opCtDec mode fun s => { s with phase := .envelope })

/-- `CT_ENC` in `raw` mode (R254, R228). -/
def execCtEncRaw (s : State) : Host.Outcome State Fault Refusal :=
  .next (s.startCommand opCtEnc 0 State.loadRaw)

/-- `CT_ENC` in `compressed` mode (R254, R228). -/
def execCtEncCompressed (s : State) : Host.Outcome State Fault Refusal :=
  .next (s.startCommand opCtEnc 1 State.startEncoder)

/-- Reserved `OP` 5 (R258): a command that does nothing but `raise BadCommand`. -/
def execReservedOp5 (mode : BitVec 1) (s : State) : Host.Outcome State Fault Refusal :=
  .next (s.startCommand 5 mode fun s => s.raise .badCommand)

/-- Reserved `OP` 6 (R258). -/
def execReservedOp6 (mode : BitVec 1) (s : State) : Host.Outcome State Fault Refusal :=
  .next (s.startCommand 6 mode fun s => s.raise .badCommand)

/-- Reserved `OP` 7 (R258). -/
def execReservedOp7 (mode : BitVec 1) (s : State) : Host.Outcome State Fault Refusal :=
  .next (s.startCommand 7 mode fun s => s.raise .badCommand)

end Sys2Proof.Machine
end

