-- ==== Sys2Proof/Machine/Dispatch.lean ====
section
/-! DEFINITION. One arm per instruction. -/

namespace Sys2Proof.Machine

def exec (i : Instr) (s : State) : Host.Outcome State Fault Refusal :=
  match i with
  | .lit data => Sys2Proof.Machine.execLit data s
  | .refM v d => Sys2Proof.Machine.execRefM v d s
  | .refL v d => Sys2Proof.Machine.execRefL v d s
  | .refS l d => Sys2Proof.Machine.execRefS l d s
  | .flags f => Sys2Proof.Machine.execFlags f s
  | .lzhdr size => Sys2Proof.Machine.execLzhdr size s
  | .lzhdrx xsize => Sys2Proof.Machine.execLzhdrx xsize s
  | .env17 seed => Sys2Proof.Machine.execEnv17 seed s
  | .env04 seed => Sys2Proof.Machine.execEnv04 seed s
  | .envUnknown tag seed => Sys2Proof.Machine.execEnvUnknown tag seed s
  | .nop => Sys2Proof.Machine.execNop s
  | .lzDec mode => Sys2Proof.Machine.execLzDec mode s
  | .lzEnc mode => Sys2Proof.Machine.execLzEnc mode s
  | .ctDec mode => Sys2Proof.Machine.execCtDec mode s
  | .ctEncRaw => Sys2Proof.Machine.execCtEncRaw s
  | .ctEncCompressed => Sys2Proof.Machine.execCtEncCompressed s
  | .reservedOp5 mode => Sys2Proof.Machine.execReservedOp5 mode s
  | .reservedOp6 mode => Sys2Proof.Machine.execReservedOp6 mode s
  | .reservedOp7 mode => Sys2Proof.Machine.execReservedOp7 mode s

end Sys2Proof.Machine
end

