-- ==== Sys2Proof/Machine/Fetch.lean ====
section
/-! DEFINITION. One step of the engine: fetch and run the next record or token of the stream, or the next step of a pass that has
no encoding; and where an opcode-table word is placed so that the next step fetches it (logs 3, 13). -/

namespace Sys2Proof.Machine

/-- Run what the decoder read. Missing bytes raise `short` (`InvalidArchive` for the envelope, R220; `StreamTooShort` for the
stream, R130, R131, R133 to R135); a wrong magic raises `InvalidData` (R130). -/
def State.runDecoded (short : ErrorKind) (s : State) : Decoded → Host.Outcome State Fault Refusal
  | .ok i _ => exec i s
  | .reject .short => .next (s.raise short)
  | .reject .badMagic => .next (s.raise .invalidData)

/-- One turn of the main loop (R132): complete when the output has the declared size (R143); else fetch a flag byte when the old
one is used up (R133); else classify a token (R133) and run it (R134 to R138). -/
def State.tokenStep (s : State) : Host.Outcome State Fault Refusal :=
  if s.size.toNat ≤ s.olen.toNat then .next (s.complete s.size)
  else if s.mask = 0 then s.runDecoded .streamTooShort (decode .flags s.streamWindow)
  else s.classified.runDecoded .streamTooShort (decode (.token s.isRef) s.streamWindow)

/-- One step of the engine. Idle, it does nothing (R300). -/
def engineStep (s : State) : Host.Outcome State Fault Refusal :=
  match s.phase with
  | .idle => .next s
  | .envelope => s.runDecoded .invalidArchive (decode .envelope s.archiveWindow)
  | .decipher => .next s.decipherStep
  | .header => s.runDecoded .streamTooShort (decode .header s.decoderInit.streamWindow)
  | .tokens => s.tokenStep
  | .compress => .next s.compressStep
  | .pad => .next s.padStep
  | .encipher => .next s.encipherStep

/-- The state in which the next engine step fetches `bytes` in context `c`, or the next host turn writes them to `CMD`: the
phase, the stream (`IN` from offset 0 under `LZ_DEC` or `CT_DEC`), room in the output and the flag bit (logs 3, 13). -/
def State.placeBytes (c : DecodeContext) (bytes : List Byte) (s : State) : State :=
  let streamed := { s with
    status := statusWord true false false, inp := s.inp.writeAll 0 bytes
    ilenCmd := BitVec.ofNat 32 bytes.length, ip := 0, ilen := BitVec.ofNat 32 bytes.length
    op := opLzDec, turns := .engine :: s.turns }
  let room := { streamed with
    phase := .tokens, size := BitVec.allOnes 32
    olen := if s.olen = BitVec.allOnes 32 then 0 else s.olen }
  match c with
  | .command =>
    match bytes with
    | b0 :: b1 :: b2 :: b3 :: _ =>
      { s with
        status := statusWord false s.done s.err, phase := .idle
        turns := .host (.writeReg 0 (le32 b0 b1 b2 b3)) :: s.turns }
    | _ => s
  | .envelope => { streamed with op := opCtDec, phase := .envelope }
  | .header => { streamed with phase := .header }
  | .flags => { room with mask := 0 }
  | .token isRef => { room with flags := if isRef then 0x80 else 0, mask := 0x80 }

/-- Place an opcode-table word (log 13); nothing changes for a width that no row has. -/
def State.placeWord (s : State) (nbits w : Nat) : State :=
  match tableContext nbits w with
  | none => s
  | some c => s.placeBytes c (tableBytes c nbits w)

end Sys2Proof.Machine
end

