-- ==== Sys2Proof/Machine/HostPort.lean ====
section
/-! DEFINITION. The host's side of the interface (10_state.md R33 to R41, 70_reset_and_hazards.md R300, R302). -/

namespace Sys2Proof.Machine

/-- A 32-bit write to a register (R33): `CMD` starts a command, `IN_LEN` is stored, both ignored while `BUSY` = 1 (R39, R260);
the read-only registers keep their values (log 9); any other offset is refused (log 10). -/
def State.writeRegister (offset : Nat) (v : Word) (s : State) : Host.Outcome State Fault Refusal :=
  if offset = 0x00 then (if s.busy then .next s else exec (decodeCommand v) s)
  else if offset = 0x04 then .next (if s.busy then s else { s with inLen := v })
  else if offset = 0x08 then .next s
  else if offset = 0x0C then .next s
  else if offset = 0x10 then .next s
  else .refused (.undefinedRegister offset)

/-- A 32-bit read of a register (R33): `CMD` reads as 0; a read has no side effect (R69) but that the host gets the value. -/
def State.readRegister (offset : Nat) (s : State) : Host.Outcome State Fault Refusal :=
  if offset = 0x00 then .next { s with bus := 0 }
  else if offset = 0x04 then .next { s with bus := s.inLen }
  else if offset = 0x08 then .next { s with bus := s.status }
  else if offset = 0x0C then .next { s with bus := s.errcode }
  else if offset = 0x10 then .next { s with bus := s.outLen }
  else .refused (.undefinedRegister offset)

/-- A write to `IN`, ignored while `BUSY` = 1 (R39, R40). -/
def State.writeInput (a : Nat) (b : Byte) (s : State) : State :=
  if s.busy then s else { s with inp := s.inp.write a b }

/-- A read of `OUT` (R41); while `BUSY` = 1 the value is unspecified: a free value (R39, log 8). -/
def State.readOutput (a : Nat) (s : State) : State :=
  if s.busy then { s with bus := (Config.freeValue 8 s.free).setWidth 32, free := s.free + 1 }
  else { s with bus := (s.out.read .out a).setWidth 32 }

/-- Hardware reset (R300): the middle column of R45's table, whatever ran before; no completion. What the host has read and will
do next is the host's, not the block's (log 16). -/
def State.hardwareReset (s : State) : State :=
  { State.reset with
    inp := Memory.empty s.free, out := Memory.empty s.free, work := Memory.empty s.free, hist := Memory.empty s.free
    free := s.free + 1, bus := s.bus, turns := s.turns }

/-- One action of the host. -/
def hostStep (a : HostAction) (s : State) : Host.Outcome State Fault Refusal :=
  match a with
  | .writeReg offset v => s.writeRegister offset v
  | .readReg offset => s.readRegister offset
  | .writeIn offset v => .next (s.writeInput offset v)
  | .readOut offset => .next (s.readOutput offset)
  | .reset => .next s.hardwareReset

/-- Who moves (log 2): the first turn, which is used up, except that waiting goes on while `BUSY` = 1; the engine when no turn
is left. -/
def takeTurn (s : State) : Host.Outcome State Fault Refusal :=
  match s.turns with
  | [] => engineStep s
  | .engine :: rest => engineStep { s with turns := rest }
  | .host a :: rest => hostStep a { s with turns := rest }
  | .await :: rest => if s.busy then engineStep s else .next { s with turns := rest }

end Sys2Proof.Machine
end

