-- ==== Sys2Proof/Machine/Step.lean ====
section
/-! DEFINITION. One step of the machine. -/

namespace Sys2Proof.Machine

/-- One move of the engine or of the host (R20, R39, R73). -/
def step (s : State) : Host.Outcome State Fault Refusal := takeTurn s

/-- `s` with an opcode-table word placed where the next step fetches it (logs 3, 13). -/
def State.withFetchWord (s : State) (nbits w : Nat) : State := s.placeWord nbits w

end Sys2Proof.Machine
end

