-- ==== Sys2Proof/Safety.lean ====
section
/-! DEFINITION. What counts as a safe run of the block: how a command may end (R255, R280), what the registers may hold in each
phase, and the run of the engine to the end of a command. Claims are stated in these terms. -/

namespace Sys2Proof.Machine

/-- `t` is `s` after a command of `s` ended by `raise e` (R280): what the host can see. `IN` and `IN_LEN` are unchanged (R281). -/
def State.EndedBy (e : ErrorKind) (s t : State) : Prop :=
  t.errcode.toNat = e.code.toNat ∧ t.outLen = 0 ∧ t.busy = false ∧ t.done = true ∧ t.err = true ∧ t.phase = .idle ∧
    t.inLen = s.inLen ∧ t.inp = s.inp

/-- `t` is a state after a command that succeeded with a result of length `r` (R255). -/
def State.Succeeded (r : Nat) (t : State) : Prop :=
  t.outLen.toNat = r ∧ t.errcode = 0 ∧ t.busy = false ∧ t.done = true ∧ t.err = false ∧ t.phase = .idle

/-- The four legal values of `STATUS`, with what `ERRCODE`, `OUT_LEN` and the engine's phase hold beside each (R36 to R39, R270). -/
def State.StatusLegal (s : State) : Prop :=
  (s.phase ≠ .idle ∧ s.status = 1 ∧ s.errcode = 0 ∧ s.outLen = 0) ∨
    (s.phase = .idle ∧ s.status = 0 ∧ s.errcode = 0 ∧ s.outLen = 0) ∨
    (s.phase = .idle ∧ s.status = 2 ∧ s.errcode = 0) ∨
    (s.phase = .idle ∧ s.status = 6 ∧ s.outLen = 0 ∧ s.errcode.toNat ∈ [1, 2, 3, 4, 5, 7])

/-- The memories are in canonical form, and `HIST` holds no offset above 4095 (R43). -/
def State.MemoryLegal (s : State) : Prop :=
  s.inp.wf = true ∧ s.out.wf = true ∧ s.work.wf = true ∧ s.hist.wf = true ∧
    ∀ c ∈ s.hist.cells, c.1 < Config.window

/-- Each phase belongs to the commands whose rule runs it (R251 to R254). -/
def State.PhaseLegal (s : State) : Prop :=
  match s.phase with
  | .idle => True
  | .envelope => s.op = opCtDec
  | .decipher => s.op = opCtDec
  | .header => s.op = opLzDec ∨ s.op = opCtDec
  | .tokens => s.op = opLzDec ∨ s.op = opCtDec
  | .compress => s.op = opLzEnc ∨ (s.op = opCtEnc ∧ s.mode = 1)
  | .pad => s.op = opCtEnc
  | .encipher => s.op = opCtEnc

/-- The codes that a command can end with (R279). -/
def errorsOf (op : BitVec 3) (mode : BitVec 1) : List Nat :=
  if op = opLzDec then [2, 3]
  else if op = opLzEnc then [4, 5]
  else if op = opCtDec then [1, 2, 3]
  else if op = opCtEnc then (if mode = 0 then [5] else [4, 5])
  else [7]

/-- The phase fits the command, and an error is one that the command can end with (R279). Which command that was is read from the
latches after its end, which they survive by the model's choice (log 27). -/
def State.ErrorLegal (s : State) : Prop :=
  s.PhaseLegal ∧ (s.err = true → s.errcode.toNat ∈ errorsOf s.op s.mode)

/-- The token decoder's registers in its main loop: the cursors stay in their ranges (R23, R24, R145), `wp` is `olen` modulo 4096
(R27), `mask` is one-hot or 0 (R25), and `HIST` is a view of the last 4096 output bytes (R141). -/
def State.DecoderLegal (s : State) : Prop :=
  s.phase = .tokens →
    s.ip.toNat ≤ s.ilen.toNat ∧ s.olen.toNat ≤ s.size.toNat ∧ s.wp.toNat = s.olen.toNat % Config.window ∧
      (s.mask = 0 ∨ ∃ k < 8, s.mask.toNat = 2 ^ k) ∧
      ∀ k, k < s.olen.toNat → s.olen.toNat ≤ k + Config.window →
        s.hist.read .hist (k % Config.window) = s.out.read .out k

/-- The token encoder's registers in its main loop: the input's length is in range (R180), `pos` does not pass it (R185), the
group holds fewer than 8 tokens of at most 4 bytes, with no flag bit set beyond them (R44, R189 to R191), and the stream is at
least the sub-header and at most the worst case of R196. -/
def State.EncoderLegal (s : State) : Prop :=
  s.phase = .compress →
    s.n = s.ilenCmd ∧ Config.minIn ≤ s.n.toNat ∧ s.n.toNat ≤ Config.maxIn ∧ s.pos.toNat ≤ s.n.toNat ∧
      s.gcount.toNat < Config.group ∧ s.gbuf.length ≤ 4 * s.gcount.toNat ∧
      s.gflags.toNat % 2 ^ (8 - s.gcount.toNat) = 0 ∧ 4 ≤ s.wlen.toNat ∧
      8 * s.wlen.toNat + 8 * s.gbuf.length + s.gcount.toNat ≤ 32 + 9 * s.pos.toNat

/-- The XOR region is a whole number of blocks and the cursor stays on a block inside it (R66, R203, R206); before padding the
body is short enough for the length registers (R196) and, in `compressed` mode, holds the sub-header (R231). -/
def State.ChainLegal (s : State) : Prop :=
  (s.phase = .decipher ∨ s.phase = .encipher →
    s.xp.toNat % Config.block = 0 ∧ s.blen.toNat % Config.block = 0 ∧ s.xp.toNat ≤ s.blen.toNat) ∧
  (s.phase = .pad → s.blen.toNat < 2 ^ 25 ∧ (s.mode = 1 → 4 ≤ s.blen.toNat))

/-- The state after `k` steps of the engine, with the host standing still. -/
def engineRun : Nat → State → State
  | 0, s => s
  | k + 1, s =>
    match engineStep s with
    | .next t => engineRun k t
    | .fault _ => s
    | .refused _ => s

/-- The engine, busy in `s`, ends the command in `t` (R262). -/
def RunsTo (s t : State) : Prop := t.phase = .idle ∧ ∃ k, engineRun k s = t

/-- `t` is `s` after a write to `CMD` that started a command (R250): `STATUS` is `BUSY` alone, `ERRCODE` and `OUT_LEN` are
cleared, the command word and `IN_LEN` are latched, and `IN` and `IN_LEN` are as the host left them. -/
def State.Started (op : BitVec 3) (mode : BitVec 1) (s t : State) : Prop :=
  t.status = 1 ∧ t.errcode = 0 ∧ t.outLen = 0 ∧ t.op = op ∧ t.mode = mode ∧ t.ilenCmd = s.inLen ∧
    t.inLen = s.inLen ∧ t.inp = s.inp ∧ t.bus = s.bus ∧ t.turns = s.turns

/-- The token decoder's working registers as R45 has them at the start of a command. -/
def State.DecoderCleared (t : State) : Prop := t.ip = 0 ∧ t.olen = 0 ∧ t.wp = 0 ∧ t.mask = 0 ∧ t.flags = 0

/-- The token encoder's group and input cursor as R180 has them at the start of a command. -/
def State.EncoderCleared (t : State) : Prop := t.pos = 0 ∧ t.gflags = 0 ∧ t.gcount = 0 ∧ t.gbuf = []

/-- Byte `a` of the token encoder's output stream: `OUT` under `LZ_ENC`, `WORK` under `CT_ENC`. After the command's end the latch
`op` still tells which, by the model's choice (log 27). -/
def State.encodedByte (s : State) (a : Nat) : Byte :=
  if s.op = opLzEnc then s.out.read .out a else s.work.read .work a

/-- `t` is `s` after a group with flag byte `f` and token bytes `bytes` went out (R190): the flag byte and then the tokens lie at the
end of the stream, everything else of it is unchanged, and so is the memory that is not the stream; the group is empty again. -/
def State.GroupSent (f : Byte) (bytes : List Byte) (s t : State) : Prop :=
  t.gcount = 0 ∧ t.gflags = 0 ∧ t.gbuf = [] ∧ t.op = s.op ∧ t.wlen.toNat = s.wlen.toNat + 1 + bytes.length ∧
    t.encodedByte s.wlen.toNat = f ∧
    (∀ k (h : k < bytes.length), t.encodedByte (s.wlen.toNat + 1 + k) = bytes[k]) ∧
    (∀ a, a < s.wlen.toNat ∨ t.wlen.toNat ≤ a → t.encodedByte a = s.encodedByte a) ∧
    (s.op = opLzEnc → t.work = s.work) ∧ (s.op ≠ opLzEnc → t.out = s.out)

/-- `t` is `s` after a back-reference of `k` bytes with length `len` and displacement `disp` has run (R136 to R140): what it
writes, where, and that everything else is unchanged. The copy ends at the declared size (R145). -/
def State.BackReferenceRan (k : Nat) (len : BitVec 17) (disp : BitVec 13) (s t : State) : Prop :=
  { t with
    out := s.out, hist := s.hist, olen := s.olen, wp := s.wp, ip := s.ip, len := s.len, disp := s.disp } = s ∧
  t.ip = s.ip + BitVec.ofNat 32 k ∧ t.len = len ∧ t.disp = disp ∧
  t.olen.toNat = max s.olen.toNat (min (s.olen.toNat + len.toNat) s.size.toNat) ∧
  t.wp.toNat = (s.wp.toNat + (t.olen.toNat - s.olen.toNat)) % Config.window ∧
  (∀ a, a < s.olen.toNat ∨ t.olen.toNat ≤ a → t.out.read .out a = s.out.read .out a) ∧
  (∀ a, (∀ i, i < t.olen.toNat - s.olen.toNat → a ≠ (s.wp.toNat + i) % Config.window) →
    t.hist.read .hist a = s.hist.read .hist a)

/-- `HIST` is a view of the last 4096 bytes of `OUT[0 .. olen)`, and `wp` is where the next one goes (R27, R141). -/
def State.HistoryView (s : State) : Prop :=
  s.wp.toNat = s.olen.toNat % Config.window ∧
    ∀ k, k < s.olen.toNat → s.olen.toNat ≤ k + Config.window →
      s.hist.read .hist (k % Config.window) = s.out.read .out k

/-- What makes an archive `A = IN[0 .. alen)` invalid (R271): too short for a header; an unknown tag; under tag `0x17` a missing or
wrong magic; a payload that is no whole number of blocks; under tag `0x04` a seed that is not the payload's length. -/
def State.ArchiveInvalid (s : State) : Prop :=
  let alen := s.ilenCmd.toNat
  let a := fun k => s.inp.read .inp k
  alen < 4 ∨ (a 0 ≠ 0x17 ∧ a 0 ≠ 0x04) ∨ (a 0 = 0x17 ∧ (alen < 5 ∨ a 4 ≠ 0x11)) ∨ (alen - 4) % 4 ≠ 0 ∨
    (a 0 = 0x04 ∧ (le24 (a 1) (a 2) (a 3)).toNat ≠ alen - 4)

end Sys2Proof.Machine
end

