-- ==== Sys2Proof/Certificates/Slice0/Obligations.lean ====
section
/-! DEFINITION. The statements for the provers. Each docstring names the rule of spec/ it formalises. -/

open Sys2Proof Sys2Proof.Machine

/-! ### Encodings (30_encoding.md) -/

/-- R90, R92 to R94, R100 to R103, R110, R115: the decoder gives back every well-formed instruction from the bytes the encoder
writes for it, whatever follows, and consumes exactly those bytes. -/
def Obligations.DecodeOfEncodeIsIdentity : Prop :=
  ∀ (i : Instr) (rest : List Byte), i.wellFormed = true →
    decode i.context (encode i ++ rest) = .ok i i.length ∧ (encode i).length = i.length

/-- R104, R106, R107: what the decoder reads from a stream or an archive is well-formed, belongs to the context, and encodes to
exactly the bytes it was read from: each record and token has one encoding. -/
def Obligations.EncodeOfDecodeIsIdentity : Prop :=
  ∀ (c : DecodeContext) (bytes : List Byte) (i : Instr) (k : Nat), c ≠ .command → decode c bytes = .ok i k →
    i.wellFormed = true ∧ i.context = c ∧ k = i.length ∧ k ≤ bytes.length ∧ encode i = bytes.take k

/-- R104: the map of all first bytes under flag bit 1, with the length field and the lengths of each form; under flag bit 0 every
byte is a literal. -/
def Obligations.FirstByteSelectsForm : Prop :=
  ∀ (b1 b2 b3 b4 : Byte),
    (b1.toNat ≤ 0x0F → ∃ v d, decode (.token true) [b1, b2, b3, b4] = .ok (.refM v d) 3 ∧
      v.toNat = b1.toNat % 16 * 16 + b2.toNat / 16 ∧ 17 ≤ (lengthM v).toNat ∧ (lengthM v).toNat ≤ 272) ∧
    (0x10 ≤ b1.toNat → b1.toNat ≤ 0x1F → ∃ v d, decode (.token true) [b1, b2, b3, b4] = .ok (.refL v d) 4 ∧
      v.toNat = b1.toNat % 16 * 4096 + b2.toNat * 16 + b3.toNat / 16 ∧
      273 ≤ (lengthL v).toNat ∧ (lengthL v).toNat ≤ 65808) ∧
    (0x20 ≤ b1.toNat → ∃ l d, decode (.token true) [b1, b2, b3, b4] = .ok (.refS l d) 2 ∧
      (lengthS l).toNat = b1.toNat / 16 + 1) ∧
    decode (.token false) [b1, b2, b3, b4] = .ok (.lit b1) 1

/-- R101 to R103, R105: the length and the displacement of each back-reference form, by the decoding formulas on its bytes. -/
def Obligations.OperandFormulas : Prop :=
  ∀ (b1 b2 b3 b4 : Byte),
    (∀ l d, decode (.token true) [b1, b2, b3, b4] = .ok (.refS l d) 2 →
      (lengthS l).toNat = (b1.toNat >>> 4) + 1 ∧
      (displacement d).toNat = ((b1.toNat &&& 0xF) <<< 8 ||| b2.toNat) + 1) ∧
    (∀ v d, decode (.token true) [b1, b2, b3, b4] = .ok (.refM v d) 3 →
      (lengthM v).toNat = ((b1.toNat &&& 0xF) <<< 4 ||| b2.toNat >>> 4) + 0x11 ∧
      (displacement d).toNat = ((b2.toNat &&& 0xF) <<< 8 ||| b3.toNat) + 1) ∧
    (∀ v d, decode (.token true) [b1, b2, b3, b4] = .ok (.refL v d) 4 →
      (lengthL v).toNat = ((b1.toNat &&& 0xF) <<< 12 ||| b2.toNat <<< 4 ||| b3.toNat >>> 4) + 0x111 ∧
      (displacement d).toNat = ((b3.toNat &&& 0xF) <<< 8 ||| b4.toNat) + 1)

/-- R106, R119, R185: the encoder's choice of form, by length class; the chosen token is well-formed and carries exactly the
length and the displacement. -/
def Obligations.LengthClassChoosesForm : Prop :=
  ∀ (len : BitVec 17) (disp : BitVec 13), 3 ≤ len.toNat → len.toNat ≤ 65808 → 1 ≤ disp.toNat → disp.toNat ≤ 4096 →
    (refToken len disp).wellFormed = true ∧
    (0x110 < len.toNat → ∃ v d, refToken len disp = .refL v d ∧ lengthL v = len ∧ displacement d = disp) ∧
    (0x10 < len.toNat → len.toNat ≤ 0x110 →
      ∃ v d, refToken len disp = .refM v d ∧ lengthM v = len ∧ displacement d = disp) ∧
    (len.toNat ≤ 0x10 → ∃ l d, refToken len disp = .refS l d ∧ lengthS l = len ∧ displacement d = disp)

/-- R107, R115: a command word is its `OP` and `MODE` fields; bits 7:3 and 31:9 are ignored. -/
def Obligations.CommandWordIgnoresOtherBits : Prop :=
  ∀ w : Word, decodeCommand w = decodeCommand (w &&& 0x107)

/-- R92 to R94, R100 to R103, R110, R115: words written out from the encoding tables decode to their instructions. -/
def Obligations.WrittenOutWordsDecode : Prop :=
  decode (.token false) [0x41] = .ok (.lit 0x41) 1 ∧
  decode (.token true) [0x05, 0x31, 0x2B] = .ok (.refM 0x53 0x12B) 3 ∧
  decode (.token true) [0x10, 0x2D, 0x70, 0x01] = .ok (.refL 0x2D7 0x001) 4 ∧
  decode (.token true) [0x2F, 0xFE] = .ok (.refS 2 0xFFE) 2 ∧
  decode .header [0x11, 0x12, 0x01, 0x00] = .ok (.lzhdr 0x112) 4 ∧
  decode .header [0x11, 0x00, 0x00, 0x00, 0x12, 0x01, 0x00, 0x00] = .ok (.lzhdrx 0x112) 8 ∧
  decode .envelope [0x17, 0x05, 0x00, 0x01] = .ok (.env17 0x010005) 4 ∧
  decodeCommand 0x104 = .ctEncCompressed

/-! ### A step runs the decoded instruction -/

/-- R130 to R135, R220, R221: where the engine moves and the bytes due next decode to an instruction, the step is `exec` of it; for
a token the classification (`mask` shifted) comes first (R133). -/
def Obligations.StepRunsFetchedRecord : Prop :=
  ∀ (s : State) (i : Instr) (k : Nat), s.turns = [] →
    (s.phase = .tokens → s.olen.toNat < s.size.toNat → s.mask = 0 → decode .flags s.streamWindow = .ok i k →
      step s = exec i s) ∧
    (s.phase = .tokens → s.olen.toNat < s.size.toNat → s.mask ≠ 0 →
      decode (.token (decide (s.flags &&& s.mask ≠ 0))) s.streamWindow = .ok i k →
      step s = exec i { s with mask := s.mask >>> 1 }) ∧
    (s.phase = .header → decode .header s.decoderInit.streamWindow = .ok i k → step s = exec i s) ∧
    (s.phase = .envelope → decode .envelope s.archiveWindow = .ok i k → step s = exec i s)

/-- R34, R250, R260: a host write to `CMD` runs the command word's instruction; while busy it is ignored. -/
def Obligations.StepRunsCommandWrite : Prop :=
  ∀ (s : State) (v : Word) (rest : List Turn), s.turns = .host (.writeReg 0x00 v) :: rest →
    (s.busy = false → step s = exec (decodeCommand v) { s with turns := rest }) ∧
    (s.busy = true → step s = .next { s with turns := rest })

/-! ### The token decoder (40_lz11_token_decoder.md) -/

/-- R133 (`FLAGS`): the flag byte is consumed, `flags` holds it and `mask` is 0x80; nothing else changes. -/
def Obligations.FlagByteStartsGroup : Prop :=
  ∀ (f : BitVec 8) (s : State), 1 ≤ s.avail → ∃ t, exec (.flags f) s = .next t ∧
    { t with flags := s.flags, mask := s.mask, ip := s.ip } = s ∧
    t.flags = f ∧ t.mask = 0x80 ∧ t.ip = s.ip + 1

/-- R134 (`LIT`): the byte is appended to the output and to the history; every other byte and register is unchanged. -/
def Obligations.LiteralAppendsOneByte : Prop :=
  ∀ (b : BitVec 8) (s : State), 1 ≤ s.avail → ∃ t, exec (.lit b) s = .next t ∧
    { t with out := s.out, hist := s.hist, olen := s.olen, wp := s.wp, ip := s.ip } = s ∧
    t.ip = s.ip + 1 ∧ t.olen = s.olen + 1 ∧ t.wp.toNat = (s.wp.toNat + 1) % 4096 ∧
    t.out.read .out s.olen.toNat = b ∧ (∀ a, a ≠ s.olen.toNat → t.out.read .out a = s.out.read .out a) ∧
    t.hist.read .hist s.wp.toNat = b ∧ (∀ a, a ≠ s.wp.toNat → t.hist.read .hist a = s.hist.read .hist a)

/-- R136 to R140, R145 (`REF_S`, `REF_M`, `REF_L`): with all bytes there and a displacement within the output, the token runs:
what it writes and everything it leaves unchanged. -/
def Obligations.BackReferenceRuns : Prop :=
  ∀ (s : State) (d : BitVec 12), (displacement d).toNat ≤ s.olen.toNat →
    (∀ l : BitVec 4, 2 ≤ s.avail → ∃ t, exec (.refS l d) s = .next t ∧
      s.BackReferenceRan 2 (lengthS l) (displacement d) t) ∧
    (∀ v : BitVec 8, 3 ≤ s.avail → ∃ t, exec (.refM v d) s = .next t ∧
      s.BackReferenceRan 3 (lengthM v) (displacement d) t) ∧
    (∀ v : BitVec 16, 4 ≤ s.avail → ∃ t, exec (.refL v d) s = .next t ∧
      s.BackReferenceRan 4 (lengthL v) (displacement d) t)

/-- R140, R141, R144: a back-reference copies output bytes from `disp` back, through the history buffer, so that with `disp < len`
the pattern of the last `disp` bytes repeats; the history stays a view of the output. -/
def Obligations.BackReferenceRepeatsPattern : Prop :=
  ∀ (k : Nat) (len : BitVec 17) (disp : BitVec 13) (s : State),
    k ≤ s.avail → 1 ≤ disp.toNat → disp.toNat ≤ 4096 → disp.toNat ≤ s.olen.toNat → s.olen.toNat ≤ s.size.toNat →
    s.HistoryView →
    (s.backReference k len disp).HistoryView ∧
    ∀ i, i < len.toNat → s.olen.toNat + i < s.size.toNat →
      (s.backReference k len disp).out.read .out (s.olen.toNat + i) =
        s.out.read .out (s.olen.toNat - disp.toNat + i % disp.toNat)

/-- R133 to R135, R273: `FLAGS`, `LIT` or a back-reference whose bytes are not all there ends the command with `StreamTooShort`,
before its displacement is looked at (R284). -/
def Obligations.MissingTokenBytesRaise : Prop :=
  ∀ (i : Instr) (s : State), i.context = .flags ∨ i.context = .token false ∨ i.context = .token true →
    s.avail < i.length → ∃ t, exec i s = .next t ∧ s.EndedBy .streamTooShort t

/-- R133 to R135, R273, R284: in the main loop, a step that finds no flag byte, no literal byte, or fewer bytes than the
back-reference's first byte asks for, ends the command with `StreamTooShort`. -/
def Obligations.StreamEndsInsideTokens : Prop :=
  ∀ s : State, s.turns = [] → s.phase = .tokens → s.olen.toNat < s.size.toNat →
    (s.avail = 0 → ∃ t, step s = .next t ∧ s.EndedBy .streamTooShort t) ∧
    (1 ≤ s.avail → s.mask ≠ 0 → s.flags &&& s.mask ≠ 0 →
      let byte1 := (s.streamByte s.ip.toNat).toNat
      s.avail < (if byte1 / 16 = 0 then 3 else if byte1 / 16 = 1 then 4 else 2) →
      ∃ t, step s = .next t ∧ s.EndedBy .streamTooShort t)

/-- R139, R272, R284: a fully present back-reference whose displacement exceeds the bytes produced so far ends the command with
`InvalidData`, whatever its length. -/
def Obligations.DisplacementBeyondOutputRaises : Prop :=
  ∀ (s : State) (d : BitVec 12), s.olen.toNat < (displacement d).toNat →
    (∀ l : BitVec 4, 2 ≤ s.avail → ∃ t, exec (.refS l d) s = .next t ∧ s.EndedBy .invalidData t) ∧
    (∀ v : BitVec 8, 3 ≤ s.avail → ∃ t, exec (.refM v d) s = .next t ∧ s.EndedBy .invalidData t) ∧
    (∀ v : BitVec 16, 4 ≤ s.avail → ∃ t, exec (.refL v d) s = .next t ∧ s.EndedBy .invalidData t)

/-- R130, R131 (`LZHDR`, `LZHDRX`): decoding starts anew, the declared size is taken as it is and the main loop is next; nothing
else changes. -/
def Obligations.HeaderDeclaresSize : Prop :=
  ∀ s : State,
    (∀ size : BitVec 24, 4 ≤ s.ilen.toNat → ∃ t, exec (.lzhdr size) s = .next t ∧
      { t with ip := s.ip, olen := s.olen, wp := s.wp, mask := s.mask, flags := s.flags, size := s.size, phase := s.phase } = s ∧
      t.ip = 4 ∧ t.size.toNat = size.toNat ∧ t.phase = .tokens ∧
      t.olen = 0 ∧ t.wp = 0 ∧ t.mask = 0 ∧ t.flags = 0) ∧
    (∀ xsize : BitVec 32, 8 ≤ s.ilen.toNat → ∃ t, exec (.lzhdrx xsize) s = .next t ∧
      { t with ip := s.ip, olen := s.olen, wp := s.wp, mask := s.mask, flags := s.flags, size := s.size, phase := s.phase } = s ∧
      t.ip = 8 ∧ t.size = xsize ∧ t.phase = .tokens ∧
      t.olen = 0 ∧ t.wp = 0 ∧ t.mask = 0 ∧ t.flags = 0)

/-- R130, R131, R272, R273, R284: the errors of the sub-header in the order of its tests: fewer than 4 bytes, then a wrong magic,
then fewer than 8 bytes when the 24-bit size is 0. -/
def Obligations.HeaderErrorsInOrder : Prop :=
  ∀ s : State, s.turns = [] → s.phase = .header →
    (s.ilen.toNat < 4 → ∃ t, step s = .next t ∧ s.EndedBy .streamTooShort t) ∧
    (4 ≤ s.ilen.toNat → s.streamByte 0 ≠ 0x11 → ∃ t, step s = .next t ∧ s.EndedBy .invalidData t) ∧
    (4 ≤ s.ilen.toNat → s.ilen.toNat < 8 → s.streamByte 0 = 0x11 →
      s.streamByte 1 = 0 → s.streamByte 2 = 0 → s.streamByte 3 = 0 →
      ∃ t, step s = .next t ∧ s.EndedBy .streamTooShort t)

/-- R132, R143, R255: when the output has the declared size the command succeeds with that length, and no further byte is read. That
the dead working registers, `WORK` and `HIST` (log 24) and the latches (log 27) keep their values is the model's choice, not a
rule's. -/
def Obligations.DecodingEndsAtDeclaredSize : Prop :=
  ∀ s : State, s.turns = [] → s.phase = .tokens → s.olen = s.size →
    ∃ t, step s = .next t ∧ t.Succeeded s.size.toNat ∧
      { t with outLen := s.outLen, errcode := s.errcode, status := s.status, phase := s.phase } = s

/-! ### The container decoder (44_container.md) -/

/-- R221 to R224 (`ENV17`): with the magic in clear and a whole number of blocks after the header, `WORK` holds the payload and the
deciphering chain starts at payload offset 4 with the key of the seed; nothing else changes. -/
def Obligations.CompressedArchiveOpens : Prop :=
  ∀ (seed : BitVec 24) (s : State), 5 ≤ s.ilenCmd.toNat → (s.ilenCmd.toNat - 4) % 4 = 0 → s.inp.read .inp 4 = 0x11 →
    ∃ t, exec (.env17 seed) s = .next t ∧
      { t with tag := s.tag, seed := s.seed, blen := s.blen, work := s.work, xp := s.xp, key := s.key, phase := s.phase } = s ∧
      t.tag = 0x17 ∧ t.seed = seed ∧ t.blen.toNat = s.ilenCmd.toNat - 4 ∧ t.xp = 4 ∧
      t.key.toNat = (0x8083 * seed.toNat) % 2 ^ 32 ∧ t.phase = .decipher ∧
      (∀ a, a < s.ilenCmd.toNat - 4 → t.work.read .work a = s.inp.read .inp (4 + a)) ∧
      (∀ a, s.ilenCmd.toNat - 4 ≤ a → t.work.read .work a = s.work.read .work a)

/-- R221, R222, R227 (`ENV04`): with a seed equal to the number of bytes after the header, a whole number of blocks, `WORK` holds
the payload and the deciphering chain starts at payload offset 0; nothing else changes. -/
def Obligations.RawArchiveOpens : Prop :=
  ∀ (seed : BitVec 24) (s : State), 4 ≤ s.ilenCmd.toNat → (s.ilenCmd.toNat - 4) % 4 = 0 →
    seed.toNat = s.ilenCmd.toNat - 4 →
    ∃ t, exec (.env04 seed) s = .next t ∧
      { t with tag := s.tag, seed := s.seed, blen := s.blen, work := s.work, xp := s.xp, key := s.key, phase := s.phase } = s ∧
      t.tag = 0x04 ∧ t.seed = seed ∧ t.blen.toNat = s.ilenCmd.toNat - 4 ∧ t.xp = 0 ∧
      t.key.toNat = (0x8083 * seed.toNat) % 2 ^ 32 ∧ t.phase = .decipher ∧
      (∀ a, a < s.ilenCmd.toNat - 4 → t.work.read .work a = s.inp.read .inp (4 + a)) ∧
      (∀ a, s.ilenCmd.toNat - 4 ≤ a → t.work.read .work a = s.work.read .work a)

/-- R235 (`ENV_UNKNOWN`): a tag other than `0x17` and `0x04` ends the command with `InvalidArchive`, whatever the rest of the archive
holds. -/
def Obligations.UnknownTagRaisesInvalidArchive : Prop :=
  ∀ (tag : BitVec 8) (seed : BitVec 24) (s : State), tag ≠ 0x17 → tag ≠ 0x04 →
    decodeEnvelope tag seed = .envUnknown tag seed ∧
    ∃ t, exec (.envUnknown tag seed) s = .next t ∧ s.EndedBy .invalidArchive t

/-- R271: `InvalidArchive` is raised at the envelope exactly when the archive is invalid, otherwise the chain starts; and no other
step of the engine raises it. -/
def Obligations.InvalidArchiveExactlyWhen : Prop :=
  (∀ s : State, s.turns = [] → s.phase = .envelope → ∃ t, step s = .next t ∧
    (s.ArchiveInvalid → s.EndedBy .invalidArchive t) ∧
    (¬ s.ArchiveInvalid → t.phase = .decipher ∧ t.status = s.status ∧ t.errcode = s.errcode)) ∧
  (∀ s t : State, s.phase ≠ .envelope → s.errcode ≠ 1 → engineStep s = .next t → t.errcode ≠ 1)

/-- R226, R227: when no block is left, a compressed archive's `WORK` goes to the token decoder, and a raw archive's `WORK` is the
result, padding included. -/
def Obligations.DecipheredArchiveIsHandedOver : Prop :=
  ∀ s : State, s.turns = [] → s.phase = .decipher → s.blen.toNat ≤ s.xp.toNat →
    (s.tag = 0x17 → ∃ t, step s = .next t ∧ t.phase = .header ∧ t.ilen = s.blen ∧ t.DecoderCleared ∧
      t.work = s.work ∧ t.op = s.op ∧ t.status = s.status) ∧
    (s.tag ≠ 0x17 → ∃ t, step s = .next t ∧ t.Succeeded s.blen.toNat ∧ t.inp = s.inp ∧
      (∀ a, a < s.blen.toNat → t.out.read .out a = s.work.read .work a))

/-! ### The host commands (45_host_commands.md) -/

/-- R257 (`NOP`): nothing changes, in every state. -/
def Obligations.NopChangesNothing : Prop :=
  ∀ (s : State) (v : Word), v.extractLsb' 0 3 = 0 → decodeCommand v = .nop ∧ exec .nop s = .next s

/-- R250, R251, R253, R259 (`LZ_DEC`, `CT_DEC`): an idle block starts the command, whatever `MODE` is. -/
def Obligations.DecodeCommandsStart : Prop :=
  ∀ (mode : BitVec 1) (s : State), s.busy = false →
    (∃ t, exec (.lzDec mode) s = .next t ∧ s.Started 1 mode t ∧ t.DecoderCleared ∧ t.EncoderCleared ∧
      t.ilen = s.inLen ∧ t.phase = .header) ∧
    (∃ t, exec (.ctDec mode) s = .next t ∧ s.Started 3 mode t ∧ t.DecoderCleared ∧ t.EncoderCleared ∧
      t.phase = .envelope)

/-- R180, R181, R250, R252, R254 (`LZ_ENC`, `CT_ENC` compressed): an input of 2 to 0xFFFFFF bytes is accepted; the stream begins
with the magic and the input's length, least significant byte first. -/
def Obligations.CompressionStarts : Prop :=
  ∀ (mode : BitVec 1) (s : State), s.busy = false → 2 ≤ s.inLen.toNat → s.inLen.toNat ≤ 0xFFFFFF →
    (∃ t, exec (.lzEnc mode) s = .next t ∧ s.Started 2 mode t ∧ t.EncoderCleared ∧ t.phase = .compress ∧
      t.n = s.inLen ∧ t.wlen = 4 ∧ t.encodedByte 0 = 0x11 ∧
      ∀ k < 3, (t.encodedByte (1 + k)).toNat = s.inLen.toNat / 256 ^ k % 256) ∧
    (∃ t, exec .ctEncCompressed s = .next t ∧ s.Started 4 1 t ∧ t.EncoderCleared ∧ t.phase = .compress ∧
      t.n = s.inLen ∧ t.wlen = 4 ∧ t.encodedByte 0 = 0x11 ∧
      ∀ k < 3, (t.encodedByte (1 + k)).toNat = s.inLen.toNat / 256 ^ k % 256)

/-- R228, R250, R254 (`CT_ENC` raw): a payload of at most 0xFFFFFF bytes, empty ones included, is the body unchanged. -/
def Obligations.RawEncodingStarts : Prop :=
  ∀ s : State, s.busy = false → s.inLen.toNat ≤ 0xFFFFFF →
    ∃ t, exec .ctEncRaw s = .next t ∧ s.Started 4 0 t ∧ t.phase = .pad ∧ t.blen = s.inLen ∧
      ∀ a, a < s.inLen.toNat → t.work.read .work a = s.inp.read .inp a

/-- R180, R233, R274, R275: the encoder's preconditions, and the limit of raw mode. -/
def Obligations.InputLengthOutOfRangeRaises : Prop :=
  ∀ (mode : BitVec 1) (s : State), s.busy = false →
    (s.inLen.toNat < 2 →
      (∃ t, exec (.lzEnc mode) s = .next t ∧ s.EndedBy .inputTooShort t) ∧
      (∃ t, exec .ctEncCompressed s = .next t ∧ s.EndedBy .inputTooShort t)) ∧
    (0xFFFFFF < s.inLen.toNat →
      (∃ t, exec (.lzEnc mode) s = .next t ∧ s.EndedBy .inputTooLarge t) ∧
      (∃ t, exec .ctEncCompressed s = .next t ∧ s.EndedBy .inputTooLarge t) ∧
      (∃ t, exec .ctEncRaw s = .next t ∧ s.EndedBy .inputTooLarge t))

/-- R258, R270, R278 (`RESERVED_OP5` to `RESERVED_OP7`): an idle block ends the command at once with `BadCommand`, code 7; and every
command word with `OP` 5, 6 or 7 is one of these. -/
def Obligations.ReservedOpRaisesBadCommand : Prop :=
  ∀ (mode : BitVec 1) (s : State) (v : Word), s.busy = false →
    (∃ t, exec (.reservedOp5 mode) s = .next t ∧ s.EndedBy .badCommand t ∧ t.errcode = 7) ∧
    (∃ t, exec (.reservedOp6 mode) s = .next t ∧ s.EndedBy .badCommand t ∧ t.errcode = 7) ∧
    (∃ t, exec (.reservedOp7 mode) s = .next t ∧ s.EndedBy .badCommand t ∧ t.errcode = 7) ∧
    (5 ≤ (v.extractLsb' 0 3).toNat →
      ∃ t, exec (decodeCommand v) s = .next t ∧ s.EndedBy .badCommand t ∧ t.errcode = 7)

/-- R260: a command word written while a command runs is ignored entirely, whatever its value. -/
def Obligations.BusyBlockIgnoresCommands : Prop :=
  ∀ (i : Instr) (s : State), i.context = .command → s.busy = true → exec i s = .next s

/-- R21, R261, R301: a command's outcome (how it ends, its error code, its result) depends on the command word and on
`IN[0 .. IN_LEN)` alone: not on earlier commands, earlier contents of any memory, or any free value. -/
def Obligations.CommandsArePureFunctions : Prop :=
  ∀ (i : Instr) (s s' u u' t : State), i.context = .command → i ≠ .nop → s.busy = false → s'.busy = false →
    s'.inLen = s.inLen → (∀ a, a < s.inLen.toNat → s'.inp.read .inp a = s.inp.read .inp a) →
    exec i s = .next u → exec i s' = .next u' → RunsTo u t →
    ∃ t', RunsTo u' t' ∧ t'.status = t.status ∧ t'.errcode = t.errcode ∧ t'.outLen = t.outLen ∧
      ∀ a, a < t.outLen.toNat → t'.out.read .out a = t.out.read .out a

/-! ### The host's accesses (10_state.md) -/

/-- R33, R34: what a read of each register gives; `CMD` reads as 0; a read changes nothing in the block. -/
def Obligations.RegistersReadAsMapped : Prop :=
  ∀ (s : State) (offset : Nat) (rest : List Turn), s.turns = .host (.readReg offset) :: rest →
    (offset = 0x00 → step s = .next { s with turns := rest, bus := 0 }) ∧
    (offset = 0x04 → step s = .next { s with turns := rest, bus := s.inLen }) ∧
    (offset = 0x08 → step s = .next { s with turns := rest, bus := s.status }) ∧
    (offset = 0x0C → step s = .next { s with turns := rest, bus := s.errcode }) ∧
    (offset = 0x10 → step s = .next { s with turns := rest, bus := s.outLen })

/-- R39, R40, R41: while a command runs, writes of `IN_LEN` and of `IN` change nothing; between commands they take effect, and a
read of `OUT` gives the byte there. While a command runs, a read of `OUT` gives some byte and changes nothing of the block. That a
read's value goes to the 32-bit `bus` (log 8), the byte zero-extended (log 26), is the model's choice. -/
def Obligations.HostAccessesInputAndOutput : Prop :=
  ∀ (s : State) (a : Nat) (b : Byte) (v : Word) (rest : List Turn),
    (s.turns = .host (.writeIn a b) :: rest →
      (s.busy = true → step s = .next { s with turns := rest }) ∧
      (s.busy = false → ∃ t, step s = .next t ∧ { t with inp := s.inp, turns := s.turns } = s ∧ t.turns = rest ∧
        t.inp.read .inp a = b ∧ ∀ a', a' ≠ a → t.inp.read .inp a' = s.inp.read .inp a')) ∧
    (s.turns = .host (.writeReg 0x04 v) :: rest →
      (s.busy = true → step s = .next { s with turns := rest }) ∧
      (s.busy = false → step s = .next { s with turns := rest, inLen := v })) ∧
    (s.turns = .host (.readOut a) :: rest →
      (s.busy = true → ∃ t, step s = .next t ∧ { t with bus := s.bus, turns := s.turns, free := s.free } = s ∧
        t.turns = rest ∧ t.bus.toNat < 256) ∧
      (s.busy = false → ∃ t, step s = .next t ∧ { t with bus := s.bus, turns := s.turns } = s ∧ t.turns = rest ∧
        t.bus.toNat = (s.out.read .out a).toNat))

/-- R33, R262: the block never stops; what is refused is the host's read or write of a register offset that does not exist, and
every such access is refused (that it is refused is the model's choice, log 10). -/
def Obligations.OnlyUndefinedRegistersAreRefused : Prop :=
  ∀ s : State,
    ((∃ t, step s = .next t) ∨
      ∃ offset rest, offset ∉ [0x00, 0x04, 0x08, 0x0C, 0x10] ∧ step s = .refused (.undefinedRegister offset) ∧
        (s.turns = .host (.readReg offset) :: rest ∨ ∃ v, s.turns = .host (.writeReg offset v) :: rest)) ∧
    (∀ offset rest v, offset ∉ [0x00, 0x04, 0x08, 0x0C, 0x10] →
      s.turns = .host (.readReg offset) :: rest ∨ s.turns = .host (.writeReg offset v) :: rest →
      step s = .refused (.undefinedRegister offset))

/-- R300, R45: hardware reset, at any moment, gives the idle block with the host's registers 0 and the cursors, counts and flags of
R45's table 0, without a completion. -/
def Obligations.HardwareResetGivesIdleBlock : Prop :=
  ∀ (s : State) (rest : List Turn), s.turns = .host .reset :: rest → ∃ t, step s = .next t ∧
    t.phase = .idle ∧ t.status = 0 ∧ t.errcode = 0 ∧ t.outLen = 0 ∧ t.inLen = 0 ∧ t.DecoderCleared ∧
    t.EncoderCleared ∧ t.wlen = 0 ∧ t.ilen = 0 ∧ t.n = 0 ∧ t.turns = rest

/-- R300: an idle block does nothing until `CMD` is written. -/
def Obligations.IdleBlockDoesNothing : Prop :=
  ∀ s : State, s.phase = .idle → (s.turns = [] → step s = .next s) ∧
    (∀ rest, s.turns = .engine :: rest → step s = .next { s with turns := rest })

/-- R40: the engine never writes `IN` or `IN_LEN`, on success or on failure, and never touches what the host has read or will do. -/
def Obligations.EngineNeverWritesInput : Prop :=
  ∀ s t : State, engineStep s = .next t →
    t.inp = s.inp ∧ t.inLen = s.inLen ∧ t.bus = s.bus ∧ t.turns = s.turns

/-- R286: `STATUS.DONE` stays 1 until the next command starts or the block is reset. -/
def Obligations.DoneStaysUntilNextCommand : Prop :=
  ∀ s t : State, s.StatusLegal → s.done = true → step s = .next t →
    t.done = true ∨ s.turns.head? = some (.host .reset) ∨
      ∃ v, s.turns.head? = some (.host (.writeReg 0x00 v)) ∧ decodeCommand v ≠ .nop

/-! ### The match detector and the token encoder (41, 42) -/

/-- R160 to R165, R169: the detector reports the longest match within the window and the forward limit, and among the candidates
that reach it the smallest displacement; it changes nothing but its result registers (and the model's counter). -/
def Obligations.DetectorFindsLongestNearestMatch : Prop :=
  ∀ s : State, s.pos.toNat < s.n.toNat →
    let x := fun a => s.inp.read .inp a
    let pos := s.pos.toNat
    let maxlen := min (s.n.toNat - pos) 0x10110
    let t := s.detect
    { t with mlen := s.mlen, mdisp := s.mdisp, free := s.free } = s ∧
    t.mlen.toNat ≤ maxlen ∧
    (1 ≤ t.mlen.toNat → 1 ≤ t.mdisp.toNat ∧ t.mdisp.toNat ≤ min pos 4096 ∧
      ∀ i, i < t.mlen.toNat → x (pos + i) = x (pos - t.mdisp.toNat + i)) ∧
    (∀ d m, 1 ≤ d → d ≤ min pos 4096 → m ≤ maxlen → (∀ i, i < m → x (pos + i) = x (pos - d + i)) →
      m ≤ t.mlen.toNat ∧ (m = t.mlen.toNat → 1 ≤ m → t.mdisp.toNat ≤ d))

/-- R182 to R185, R189, R190: a step of the loop takes the detector's result at `pos`, chooses one token by it, sets its flag bit
exactly for a back-reference, and advances the input cursor by what the token covers. A token that is not the group's eighth is
buffered and nothing reaches the stream; the eighth goes out with its group. -/
def Obligations.TokenIsChosenAndBuffered : Prop :=
  ∀ s : State, s.turns = [] → s.phase = .compress → s.pos.toNat < s.n.toNat → s.gcount.toNat < 8 →
    let isRef := decide (3 ≤ s.detect.mlen.toNat)
    let token := if isRef then encode (refToken s.detect.mlen s.detect.mdisp) else [s.inp.read .inp s.pos.toNat]
    let flagByte := if isRef then s.gflags ||| ((0x80 : BitVec 8) >>> s.gcount.toNat) else s.gflags
    ∃ t, step s = .next t ∧ t.mlen = s.detect.mlen ∧ t.mdisp = s.detect.mdisp ∧ t.free = s.detect.free ∧
      t.pos = (if isRef then s.pos + s.detect.mlen.setWidth 32 else s.pos + 1) ∧
      (s.gcount.toNat < 7 →
        { t with
          pos := s.pos, gflags := s.gflags, gcount := s.gcount, gbuf := s.gbuf
          mlen := s.mlen, mdisp := s.mdisp, free := s.free } = s ∧
        t.gcount.toNat = s.gcount.toNat + 1 ∧ t.gflags = flagByte ∧ t.gbuf = s.gbuf ++ token) ∧
      (s.gcount.toNat = 7 → s.wlen.toNat + s.gbuf.length + 5 < 2 ^ 32 →
        { t with
          pos := s.pos, gflags := s.gflags, gcount := s.gcount, gbuf := s.gbuf
          mlen := s.mlen, mdisp := s.mdisp, free := s.free, out := s.out, work := s.work, wlen := s.wlen } = s ∧
        s.GroupSent flagByte (s.gbuf ++ token) t)

/-- R189, R190: the eighth token flushes its group: the flag byte, then the tokens, go out in one piece, nothing already written
changes, and the group is empty again. -/
def Obligations.EighthTokenFlushesGroup : Prop :=
  ∀ (token : List Byte) (isRef : Bool) (s : State), s.gcount = 7 →
    s.wlen.toNat + 1 + s.gbuf.length + token.length < 2 ^ 32 →
    let t := s.account token isRef
    { t with
      gflags := s.gflags, gcount := s.gcount, gbuf := s.gbuf, out := s.out, work := s.work, wlen := s.wlen } = s ∧
    s.GroupSent (if isRef then s.gflags ||| 1 else s.gflags) (s.gbuf ++ token) t

/-- R191, R192, R228: at the end of the input a partial group is flushed and an empty one emits nothing; `LZ_ENC` then succeeds
with the stream's length, and `CT_ENC` goes on to padding. That the latch `op` still names the stream's memory after `LZ_ENC` has
ended is the model's choice (log 27). -/
def Obligations.FinalFlushEndsCompression : Prop :=
  ∀ s : State, s.turns = [] → s.phase = .compress → s.n.toNat ≤ s.pos.toNat →
    s.wlen.toNat + 1 + s.gbuf.length < 2 ^ 32 →
    ∃ t, step s = .next t ∧
      (let total := if s.gcount = 0 then s.wlen.toNat else s.wlen.toNat + 1 + s.gbuf.length
       (s.op = 2 → t.Succeeded total) ∧
       (s.op ≠ 2 → t.phase = .pad ∧ t.blen.toNat = total ∧ t.status = s.status) ∧
       (∀ a, a < s.wlen.toNat ∨ total ≤ a → t.encodedByte a = s.encodedByte a) ∧
       (s.gcount ≠ 0 → t.encodedByte s.wlen.toNat = s.gflags ∧
         ∀ k (h : k < s.gbuf.length), t.encodedByte (s.wlen.toNat + 1 + k) = s.gbuf[k]))

/-! ### The XOR engine and the container encoder (43, 44) -/

/-- R200, R201: the initial key is the low 32 bits of `0x8083 * seed`, for every seed. -/
def Obligations.KeyOfSeed : Prop :=
  ∀ seed : BitVec 24, (initialKey seed).toNat = (0x8083 * seed.toNat) % 2 ^ 32

/-- R201, R203, R206, R210: while a block of the region is left, the engine's step transforms it; one block of either chain, byte by
byte: what it writes, what the key becomes, and that everything else is unchanged. -/
def Obligations.ChainBlockTransformsFourBytes : Prop :=
  ∀ s : State,
    (s.turns = [] → s.xp.toNat < s.blen.toNat →
      (s.phase = .decipher → step s = .next s.decipherBlock) ∧
      (s.phase = .encipher → step s = .next s.encipherBlock)) ∧
    (let t := s.decipherBlock
     { t with work := s.work, key := s.key, xp := s.xp } = s ∧ t.xp = s.xp + 4 ∧
     (∀ i < 4, t.work.read .work (s.xp.toNat + i) = s.work.read .work (s.xp.toNat + i) ^^^ byteOf s.key i ∧
       byteOf t.key i = byteOf s.key i ^^^ t.work.read .work (s.xp.toNat + i)) ∧
     (∀ a, a < s.xp.toNat ∨ s.xp.toNat + 4 ≤ a → t.work.read .work a = s.work.read .work a)) ∧
    (let t := s.encipherBlock
     { t with work := s.work, key := s.key, xp := s.xp } = s ∧ t.xp = s.xp + 4 ∧
     (∀ i < 4, t.work.read .work (s.xp.toNat + i) = s.work.read .work (s.xp.toNat + i) ^^^ byteOf s.key i ∧
       byteOf t.key i = t.work.read .work (s.xp.toNat + i)) ∧
     (∀ a, a < s.xp.toNat ∨ s.xp.toNat + 4 ≤ a → t.work.read .work a = s.work.read .work a))

/-- R204: deciphering `m` blocks gives each plain block from the original enciphered ones: block 0 with the key, block `j` with
enciphered block `j - 1`. -/
def Obligations.DecipheringNeedsNoRunningKey : Prop :=
  ∀ (m : Nat) (s : State), s.xp.toNat + 4 * m < 2 ^ 32 →
    let t := State.decipherBlock^[m] s
    (0 < m → t.work.readWord .work s.xp.toNat = s.work.readWord .work s.xp.toNat ^^^ s.key) ∧
    (∀ j, 1 ≤ j → j < m →
      t.work.readWord .work (s.xp.toNat + 4 * j) =
        s.work.readWord .work (s.xp.toNat + 4 * j) ^^^ s.work.readWord .work (s.xp.toNat + 4 * (j - 1)))

/-- R207: the two chains are inverses: deciphering the enciphered region with the same starting key and offset restores every
byte, and enciphering the deciphered region likewise. -/
def Obligations.ChainsAreInverse : Prop :=
  ∀ (m : Nat) (s t : State), s.xp.toNat + 4 * m < 2 ^ 32 → t.xp = s.xp → t.key = s.key →
    ((∀ a, t.work.read .work a = (State.encipherBlock^[m] s).work.read .work a) →
      ∀ a, (State.decipherBlock^[m] t).work.read .work a = s.work.read .work a) ∧
    ((∀ a, t.work.read .work a = (State.decipherBlock^[m] s).work.read .work a) →
      ∀ a, (State.encipherBlock^[m] t).work.read .work a = s.work.read .work a)

/-- R229, R230, R231: the body is padded with zeros to the least multiple of 4 not below it, the seed is the payload's length, the
tag is the mode's, and the chain starts at the tag's offset with the seed's key. -/
def Obligations.BodyIsPaddedAndKeyed : Prop :=
  ∀ s : State, s.turns = [] → s.phase = .pad → s.blen.toNat < 2 ^ 25 → s.ilenCmd.toNat ≤ 0xFFFFFF →
    ∃ t, step s = .next t ∧ t.phase = .encipher ∧
      { t with blen := s.blen, work := s.work, seed := s.seed, tag := s.tag, xp := s.xp, key := s.key, phase := s.phase } = s ∧
      t.blen.toNat % 4 = 0 ∧ s.blen.toNat ≤ t.blen.toNat ∧ t.blen.toNat < s.blen.toNat + 4 ∧
      (∀ a, s.blen.toNat ≤ a → a < t.blen.toNat → t.work.read .work a = 0) ∧
      (∀ a, a < s.blen.toNat ∨ t.blen.toNat ≤ a → t.work.read .work a = s.work.read .work a) ∧
      t.seed.toNat = s.ilenCmd.toNat ∧
      (s.mode = 1 → t.tag = 0x17 ∧ t.xp = 4) ∧ (s.mode = 0 → t.tag = 0x04 ∧ t.xp = 0) ∧
      t.key.toNat = (0x8083 * s.ilenCmd.toNat) % 2 ^ 32

/-- R230, R232: when no block is left the archive is the 4 header bytes and then the transformed, padded body. -/
def Obligations.ArchiveIsHeaderAndBody : Prop :=
  ∀ s : State, s.turns = [] → s.phase = .encipher → s.blen.toNat ≤ s.xp.toNat → s.blen.toNat < 2 ^ 32 - 4 →
    s.tag = 0x17 ∨ s.tag = 0x04 →
    ∃ t, step s = .next t ∧ t.Succeeded (4 + s.blen.toNat) ∧ t.inp = s.inp ∧
      t.out.read .out 0 = s.tag ∧ (∀ k < 3, (t.out.read .out (1 + k)).toNat = s.seed.toNat / 256 ^ k % 256) ∧
      (∀ a, a < s.blen.toNat → t.out.read .out (4 + a) = s.work.read .work a)

/-! ### Invariants of every step -/

/-- R45, R300: the state after reset is legal in every sense the invariants use. -/
def Obligations.ResetIsLegal : Prop :=
  State.reset.StatusLegal ∧ State.reset.MemoryLegal ∧ State.reset.ErrorLegal ∧ State.reset.DecoderLegal ∧
    State.reset.EncoderLegal ∧ State.reset.ChainLegal

/-- R36 to R38: every step keeps `STATUS` at one of its four legal values, with the matching `ERRCODE`, `OUT_LEN` and phase. -/
def Obligations.StepKeepsStatusLegal : Prop :=
  ∀ s t : State, s.StatusLegal → step s = .next t → t.StatusLegal

/-- Every step keeps the four memories in canonical form and `HIST` within its 4096 bytes (R43). -/
def Obligations.StepKeepsMemoryLegal : Prop :=
  ∀ s t : State, s.MemoryLegal → step s = .next t → t.MemoryLegal

/-- R279: every step keeps the phase one of the running command's, and an error one that its command can end with. That the latches
`op` and `mode` still name the command after its end is the model's choice (log 27), not a rule's. -/
def Obligations.StepKeepsErrorLegal : Prop :=
  ∀ s t : State, s.ErrorLegal → step s = .next t → t.ErrorLegal

/-- R23, R24, R25, R27, R141, R145: every step keeps the token decoder's cursors in range, `wp` at `olen` modulo 4096, `mask`
one-hot or 0, and `HIST` a view of the last 4096 output bytes. -/
def Obligations.StepKeepsDecoderLegal : Prop :=
  ∀ s t : State, s.DecoderLegal → step s = .next t → t.DecoderLegal

/-- R29, R44, R185, R189 to R191, R196, R66: every step keeps the token encoder's cursor, group and stream length in range, and the
XOR cursor on a block of a whole region. -/
def Obligations.StepKeepsEncoderAndChainLegal : Prop :=
  ∀ s t : State, s.EncoderLegal → s.ChainLegal → step s = .next t → t.EncoderLegal ∧ t.ChainLegal

/-! ### Whole commands -/

/-- R147, R262, R303: the engine, busy in any legal state, ends the command after finitely many steps, with success or with an
error. -/
def Obligations.EveryCommandEnds : Prop :=
  ∀ s : State, s.StatusLegal → s.DecoderLegal → s.EncoderLegal → s.ChainLegal → s.phase ≠ .idle →
    ∃ t, RunsTo s t ∧ t.StatusLegal ∧ t.done = true

/-- R196: `LZ_ENC` of `n` bytes succeeds with at most `4 + n + ceil(n / 8)` bytes. -/
def Obligations.CompressedSizeIsBounded : Prop :=
  ∀ (mode : BitVec 1) (s u t : State), s.busy = false → 2 ≤ s.inLen.toNat → s.inLen.toNat ≤ 0xFFFFFF →
    exec (.lzEnc mode) s = .next u → RunsTo u t →
    t.status = 2 ∧ 7 ≤ t.outLen.toNat ∧ t.outLen.toNat ≤ 4 + s.inLen.toNat + (s.inLen.toNat + 7) / 8

/-- R193: for every input of 2 to 0xFFFFFF bytes, `LZ_ENC` succeeds, and `LZ_DEC` of its result gives the input back. -/
def Obligations.DecompressionInvertsCompression : Prop :=
  ∀ (m m' : BitVec 1) (s : State), s.busy = false → 2 ≤ s.inLen.toNat → s.inLen.toNat ≤ 0xFFFFFF →
    ∃ u t, exec (.lzEnc m) s = .next u ∧ RunsTo u t ∧ t.status = 2 ∧
      ∀ s' : State, s'.busy = false → s'.inLen = t.outLen →
        (∀ a, a < t.outLen.toNat → s'.inp.read .inp a = t.out.read .out a) →
        ∃ u' t', exec (.lzDec m') s' = .next u' ∧ RunsTo u' t' ∧ t'.status = 2 ∧ t'.outLen = s.inLen ∧
          ∀ a, a < s.inLen.toNat → t'.out.read .out a = s.inp.read .inp a

/-- R234 (a): for every payload of 2 to 0xFFFFFF bytes, `CT_ENC` compressed succeeds, and `CT_DEC` of its archive gives the
payload back. -/
def Obligations.CompressedArchiveRoundTrips : Prop :=
  ∀ (m' : BitVec 1) (s : State), s.busy = false → 2 ≤ s.inLen.toNat → s.inLen.toNat ≤ 0xFFFFFF →
    ∃ u t, exec .ctEncCompressed s = .next u ∧ RunsTo u t ∧ t.status = 2 ∧
      ∀ s' : State, s'.busy = false → s'.inLen = t.outLen →
        (∀ a, a < t.outLen.toNat → s'.inp.read .inp a = t.out.read .out a) →
        ∃ u' t', exec (.ctDec m') s' = .next u' ∧ RunsTo u' t' ∧ t'.status = 2 ∧ t'.outLen = s.inLen ∧
          ∀ a, a < s.inLen.toNat → t'.out.read .out a = s.inp.read .inp a

/-- R234 (b), 90_conflicts.md C3 and C4: `CT_ENC` raw of a payload of at most 0xFFFFFF bytes succeeds; `CT_DEC` of its archive gives
the payload back exactly when its length is a multiple of 4, and ends with `InvalidArchive` otherwise. -/
def Obligations.RawArchiveRoundTripsForWholeBlocks : Prop :=
  ∀ (m' : BitVec 1) (s : State), s.busy = false → s.inLen.toNat ≤ 0xFFFFFF →
    ∃ u t, exec .ctEncRaw s = .next u ∧ RunsTo u t ∧ t.status = 2 ∧
      ∀ s' : State, s'.busy = false → s'.inLen = t.outLen →
        (∀ a, a < t.outLen.toNat → s'.inp.read .inp a = t.out.read .out a) →
        ∃ u' t', exec (.ctDec m') s' = .next u' ∧ RunsTo u' t' ∧
          (s.inLen.toNat % 4 = 0 → t'.status = 2 ∧ t'.outLen = s.inLen ∧
            ∀ a, a < s.inLen.toNat → t'.out.read .out a = s.inp.read .inp a) ∧
          (s.inLen.toNat % 4 ≠ 0 → s'.EndedBy .invalidArchive t')
end

