-- ==== Sys2Proof/Laws/Bits.lean ====
section
/-! SUPPORT. Nibbles, bytes and words: taking apart and putting together, in both directions. -/

namespace Sys2Proof

/-- The value of two fields put side by side. -/
theorem toNat_append_add {v w : Nat} (a : BitVec v) (b : BitVec w) : (a ++ b).toNat = a.toNat * 2 ^ w + b.toNat := by
  rw [BitVec.toNat_append, Nat.shiftLeft_eq, Nat.mul_comm, Nat.two_pow_add_eq_or_of_lt b.isLt]

theorem hiNibble_toNat (b : Byte) : (hiNibble b).toNat = b.toNat / 16 := by
  have := b.isLt
  simp [hiNibble, BitVec.extractLsb'_toNat, Nat.shiftRight_eq_div_pow]; omega

theorem loNibble_toNat (b : Byte) : (loNibble b).toNat = b.toNat % 16 := by
  simp [loNibble, BitVec.extractLsb'_toNat]

theorem dispHi_toNat (d : BitVec 12) : (dispHi d).toNat = d.toNat / 256 := by
  have := d.isLt
  simp [dispHi, BitVec.extractLsb'_toNat, Nat.shiftRight_eq_div_pow]; omega

theorem dispLo_toNat (d : BitVec 12) : (dispLo d).toNat = d.toNat % 256 := by
  simp [dispLo, BitVec.extractLsb'_toNat]

theorem byteOf_toNat {w : Nat} (x : BitVec w) (k : Nat) : (byteOf x k).toNat = x.toNat / 2 ^ (8 * k) % 256 := by
  simp [byteOf, BitVec.extractLsb'_toNat, Nat.shiftRight_eq_div_pow]

theorem le24_toNat (b0 b1 b2 : Byte) : (le24 b0 b1 b2).toNat = b0.toNat + 256 * b1.toNat + 65536 * b2.toNat := by
  have h : (le24 b0 b1 b2).toNat = (b2 ++ b1 ++ b0).toNat := rfl
  rw [h, toNat_append_add, toNat_append_add]; omega

theorem le32_toNat (b0 b1 b2 b3 : Byte) :
    (le32 b0 b1 b2 b3).toNat = b0.toNat + 256 * b1.toNat + 65536 * b2.toNat + 16777216 * b3.toNat := by
  have h : (le32 b0 b1 b2 b3).toNat = (b3 ++ b2 ++ b1 ++ b0).toNat := rfl
  rw [h, toNat_append_add, toNat_append_add, toNat_append_add]; omega

@[simp] theorem hiNibble_append (a b : BitVec 4) : hiNibble (a ++ b) = a := by
  have h : (hiNibble (a ++ b)).toNat = (a ++ b).toNat / 16 := hiNibble_toNat _
  have := b.isLt
  refine BitVec.eq_of_toNat_eq ?_
  rw [h, toNat_append_add]; omega

@[simp] theorem loNibble_append (a b : BitVec 4) : loNibble (a ++ b) = b := by
  have h : (loNibble (a ++ b)).toNat = (a ++ b).toNat % 16 := loNibble_toNat _
  have := b.isLt
  refine BitVec.eq_of_toNat_eq ?_
  rw [h, toNat_append_add]; omega

@[simp] theorem hiNibble_append_loNibble (b : Byte) : hiNibble b ++ loNibble b = b := by
  refine BitVec.eq_of_toNat_eq ?_
  rw [toNat_append_add, hiNibble_toNat, loNibble_toNat]; omega

@[simp] theorem dispHi_append (a : BitVec 4) (b : Byte) : dispHi (a ++ b) = a := by
  have h : (dispHi (a ++ b)).toNat = (a ++ b).toNat / 256 := dispHi_toNat _
  have := b.isLt
  refine BitVec.eq_of_toNat_eq ?_
  rw [h, toNat_append_add]; omega

@[simp] theorem dispLo_append (a : BitVec 4) (b : Byte) : dispLo (a ++ b) = b := by
  have h : (dispLo (a ++ b)).toNat = (a ++ b).toNat % 256 := dispLo_toNat _
  have := b.isLt
  refine BitVec.eq_of_toNat_eq ?_
  rw [h, toNat_append_add]; omega

@[simp] theorem dispHi_append_dispLo (d : BitVec 12) : dispHi d ++ dispLo d = d := by
  refine BitVec.eq_of_toNat_eq ?_
  rw [toNat_append_add, dispHi_toNat, dispLo_toNat]; omega

@[simp] theorem le24_byteOf (x : BitVec 24) : le24 (byteOf x 0) (byteOf x 1) (byteOf x 2) = x := by
  have := x.isLt
  refine BitVec.eq_of_toNat_eq ?_
  rw [le24_toNat, byteOf_toNat, byteOf_toNat, byteOf_toNat]; omega

@[simp] theorem le32_byteOf (x : Word) : le32 (byteOf x 0) (byteOf x 1) (byteOf x 2) (byteOf x 3) = x := by
  have := x.isLt
  refine BitVec.eq_of_toNat_eq ?_
  rw [le32_toNat, byteOf_toNat, byteOf_toNat, byteOf_toNat, byteOf_toNat]; omega

theorem byteOf_le24 (b0 b1 b2 : Byte) :
    byteOf (le24 b0 b1 b2) 0 = b0 ∧ byteOf (le24 b0 b1 b2) 1 = b1 ∧ byteOf (le24 b0 b1 b2) 2 = b2 := by
  have := b0.isLt; have := b1.isLt; have := b2.isLt
  refine ⟨?_, ?_, ?_⟩ <;> refine BitVec.eq_of_toNat_eq ?_ <;> rw [byteOf_toNat, le24_toNat] <;> omega

theorem byteOf_le32 (b0 b1 b2 b3 : Byte) :
    byteOf (le32 b0 b1 b2 b3) 0 = b0 ∧ byteOf (le32 b0 b1 b2 b3) 1 = b1 ∧
      byteOf (le32 b0 b1 b2 b3) 2 = b2 ∧ byteOf (le32 b0 b1 b2 b3) 3 = b3 := by
  have := b0.isLt; have := b1.isLt; have := b2.isLt; have := b3.isLt
  refine ⟨?_, ?_, ?_, ?_⟩ <;> refine BitVec.eq_of_toNat_eq ?_ <;> rw [byteOf_toNat, le32_toNat] <;> omega

@[simp] theorem bytesLE24_le24 (b0 b1 b2 : Byte) : bytesLE24 (le24 b0 b1 b2) = [b0, b1, b2] := by
  obtain ⟨h0, h1, h2⟩ := byteOf_le24 b0 b1 b2
  simp [bytesLE24, h0, h1, h2]

@[simp] theorem bytesLE32_le32 (b0 b1 b2 b3 : Byte) : bytesLE32 (le32 b0 b1 b2 b3) = [b0, b1, b2, b3] := by
  obtain ⟨h0, h1, h2, h3⟩ := byteOf_le32 b0 b1 b2 b3
  simp [bytesLE32, h0, h1, h2, h3]

end Sys2Proof
end

