-- ==== Sys2Proof/Laws/Memory.lean ====
section
/-! SUPPORT. What each memory operation does, said once: reads after writes, the canonical form, and that equal memories are
equal data. -/

namespace Sys2Proof.Machine

/-! ### Lookup and insert -/

theorem Memory.lookup_insertCell_self (c : List Host.Cell) (a : Nat) (b : Byte) :
    Memory.lookup (Memory.insertCell c a b) a = some b := by
  induction c with
  | nil => simp [Memory.insertCell, Memory.lookup]
  | cons kv rest ih =>
    obtain ⟨k, v⟩ := kv
    by_cases h : a < k
    · simp [Memory.insertCell, h, Memory.lookup]
    · by_cases h' : a = k
      · simp [Memory.insertCell, h', Memory.lookup]
      · have : k ≠ a := fun e => h' e.symm
        simp [Memory.insertCell, h, h', Memory.lookup, this, ih]

theorem Memory.lookup_insertCell_other (c : List Host.Cell) {a a' : Nat} (b : Byte) (h : a' ≠ a) :
    Memory.lookup (Memory.insertCell c a b) a' = Memory.lookup c a' := by
  have ha : a ≠ a' := fun e => h e.symm
  induction c with
  | nil => simp [Memory.insertCell, Memory.lookup, ha]
  | cons kv rest ih =>
    obtain ⟨k, v⟩ := kv
    by_cases h1 : a < k
    · simp [Memory.insertCell, h1, Memory.lookup, ha]
    · by_cases h2 : a = k
      · subst h2
        simp [Memory.insertCell, Memory.lookup, ha]
      · rw [Memory.insertCell, if_neg h1, if_neg h2, Memory.lookup, Memory.lookup, ih]

/-! ### Reads after writes -/

@[simp] theorem Memory.write_generation (m : Memory) (a : Nat) (b : Byte) : (m.write a b).generation = m.generation := rfl

/-- A read of the byte just written gives it. -/
@[simp] theorem Memory.read_write_self (sp : Config.Space) (m : Memory) (a : Nat) (b : Byte) :
    (m.write a b).read sp a = b := by
  simp [Memory.read, Memory.write, Memory.lookup_insertCell_self]

/-- A write leaves every other byte alone. -/
theorem Memory.read_write_other (sp : Config.Space) (m : Memory) {a a' : Nat} (b : Byte) (h : a' ≠ a) :
    (m.write a b).read sp a' = m.read sp a' := by
  simp [Memory.read, Memory.write, Memory.lookup_insertCell_other _ _ h]

/-- Both in one: what a byte reads as after a write. -/
theorem Memory.read_write (sp : Config.Space) (m : Memory) (a a' : Nat) (b : Byte) :
    (m.write a b).read sp a' = if a' = a then b else m.read sp a' := by
  split
  · subst_vars; simp
  · exact Memory.read_write_other sp m b ‹_›

@[simp] theorem Memory.writeAll_generation (bs : List Byte) (m : Memory) (a : Nat) :
    (m.writeAll a bs).generation = m.generation := by
  induction bs generalizing m a with
  | nil => rfl
  | cons b rest ih => simp [Memory.writeAll, ih]

/-- What a byte reads as after consecutive writes. -/
theorem Memory.read_writeAll (sp : Config.Space) (bs : List Byte) (m : Memory) (a a' : Nat) :
    (m.writeAll a bs).read sp a' =
      if h : a ≤ a' ∧ a' < a + bs.length then bs[a' - a]'(by omega) else m.read sp a' := by
  induction bs generalizing m a with
  | nil => simp [Memory.writeAll]
  | cons b rest ih =>
    simp only [Memory.writeAll, ih, Memory.read_write, List.length_cons]
    by_cases h : a' = a
    · subst h; simp
    · by_cases h2 : a + 1 ≤ a' ∧ a' < a + 1 + rest.length
      · have h3 : a ≤ a' ∧ a' < a + (rest.length + 1) := by omega
        have h4 : a' - a = (a' - (a + 1)) + 1 := by omega
        simp [h2, h3, h4]
      · have h3 : ¬ (a ≤ a' ∧ a' < a + (rest.length + 1)) := by omega
        rw [dif_neg h2, dif_neg h3, if_neg h]

/-- Consecutive writes leave every byte outside them alone. -/
theorem Memory.read_writeAll_outside (sp : Config.Space) (bs : List Byte) (m : Memory) {a a' : Nat}
    (h : a' < a ∨ a + bs.length ≤ a') : (m.writeAll a bs).read sp a' = m.read sp a' := by
  rw [Memory.read_writeAll, dif_neg]; omega

@[simp] theorem Memory.copyFrom_generation (src : Nat → Byte) (start dst k : Nat) (m : Memory) :
    (Memory.copyFrom src start dst k m).generation = m.generation := by
  induction k generalizing m with
  | zero => rfl
  | succ k ih => simp [Memory.copyFrom, ih]

/-- What a byte reads as after a copy. -/
theorem Memory.read_copyFrom (sp : Config.Space) (src : Nat → Byte) (start dst k : Nat) (m : Memory) (a : Nat) :
    (Memory.copyFrom src start dst k m).read sp a =
      if dst ≤ a ∧ a < dst + k then src (start + (a - dst)) else m.read sp a := by
  induction k generalizing m with
  | zero => simp [Memory.copyFrom]
  | succ k ih =>
    simp only [Memory.copyFrom, ih, Memory.read_write]
    by_cases h : dst ≤ a ∧ a < dst + k
    · rw [if_pos h, if_pos (by omega)]
    · by_cases h2 : a = dst + k
      · subst h2; simp
      · rw [if_neg h, if_neg h2, if_neg (by omega)]

/-! ### The canonical form -/

theorem Memory.risingFrom_mono {lo lo' : Nat} (h : lo' ≤ lo) (c : List Host.Cell) (hc : Memory.risingFrom lo c = true) :
    Memory.risingFrom lo' c = true := by
  cases c with
  | nil => rfl
  | cons kv rest =>
    simp only [Memory.risingFrom, Bool.and_eq_true, decide_eq_true_eq] at *
    exact ⟨by omega, hc.2⟩

theorem Memory.risingFrom_insertCell {lo a : Nat} (b : Byte) (c : List Host.Cell) (h : lo ≤ a)
    (hc : Memory.risingFrom lo c = true) : Memory.risingFrom lo (Memory.insertCell c a b) = true := by
  induction c generalizing lo with
  | nil => simp [Memory.insertCell, Memory.risingFrom, h]
  | cons kv rest ih =>
    obtain ⟨k, v⟩ := kv
    simp only [Memory.risingFrom, Bool.and_eq_true, decide_eq_true_eq] at hc
    by_cases h1 : a < k
    · simp [Memory.insertCell, h1, Memory.risingFrom, h, hc.2]
    · by_cases h2 : a = k
      · subst h2; simp [Memory.insertCell, Memory.risingFrom, hc]
      · simp [Memory.insertCell, h1, h2, Memory.risingFrom, hc.1, ih (lo := k + 1) (by omega) hc.2]

@[simp] theorem Memory.empty_wf (g : Nat) : (Memory.empty g).wf = true := rfl

/-- A write keeps the canonical form. -/
theorem Memory.write_wf {m : Memory} (a : Nat) (b : Byte) (h : m.wf = true) : (m.write a b).wf = true :=
  Memory.risingFrom_insertCell b m.cells (Nat.zero_le a) h

theorem Memory.writeAll_wf (bs : List Byte) {m : Memory} (a : Nat) (h : m.wf = true) : (m.writeAll a bs).wf = true := by
  induction bs generalizing m a with
  | nil => exact h
  | cons b rest ih => exact ih (a + 1) (Memory.write_wf a b h)

theorem Memory.writeWord_wf {m : Memory} (a : Nat) (x : Word) (h : m.wf = true) : (m.writeWord a x).wf = true :=
  Memory.writeAll_wf _ a h

theorem Memory.copyFrom_wf (src : Nat → Byte) (start dst k : Nat) {m : Memory} (h : m.wf = true) :
    (Memory.copyFrom src start dst k m).wf = true := by
  induction k generalizing m with
  | zero => exact h
  | succ k ih => exact ih (Memory.write_wf _ _ h)

theorem Memory.lookup_below {lo a : Nat} (c : List Host.Cell) (hc : Memory.risingFrom lo c = true) (h : a < lo) :
    Memory.lookup c a = none := by
  induction c generalizing lo with
  | nil => rfl
  | cons kv rest ih =>
    obtain ⟨k, v⟩ := kv
    simp only [Memory.risingFrom, Bool.and_eq_true, decide_eq_true_eq] at hc
    rw [Memory.lookup, if_neg (by omega), ih hc.2 (by omega)]

theorem Memory.cells_ext {lo : Nat} (c c' : List Host.Cell) (hc : Memory.risingFrom lo c = true)
    (hc' : Memory.risingFrom lo c' = true) (h : ∀ a, Memory.lookup c a = Memory.lookup c' a) : c = c' := by
  induction c generalizing lo c' with
  | nil =>
    cases c' with
    | nil => rfl
    | cons kv rest => have := h kv.1; simp [Memory.lookup] at this
  | cons kv rest ih =>
    obtain ⟨k, v⟩ := kv
    cases c' with
    | nil => have := h k; simp [Memory.lookup] at this
    | cons kv' rest' =>
      obtain ⟨k', v'⟩ := kv'
      simp only [Memory.risingFrom, Bool.and_eq_true, decide_eq_true_eq] at hc hc'
      have hk : k = k' := by
        rcases Nat.lt_trichotomy k k' with hlt | he | hgt
        · have := h k
          rw [Memory.lookup, if_pos rfl, Memory.lookup, if_neg (by omega), Memory.lookup_below rest' hc'.2 (by omega)] at this
          cases this
        · exact he
        · have := h k'
          rw [Memory.lookup, if_neg (by omega), Memory.lookup_below rest hc.2 (by omega), Memory.lookup, if_pos rfl] at this
          cases this
      subst hk
      have hv : v = v' := by simpa [Memory.lookup] using h k
      subst hv
      have hr : rest = rest' := ih rest' hc.2 hc'.2 fun a => by
        by_cases ha : k = a
        · subst ha
          rw [Memory.lookup_below rest hc.2 (by omega), Memory.lookup_below rest' hc'.2 (by omega)]
        · have := h a
          rwa [Memory.lookup, if_neg ha, Memory.lookup, if_neg ha] at this
      rw [hr]

/-- Two memories in canonical form with the same written bytes and the same generation are equal data. -/
theorem Memory.ext_of_wf {m m' : Memory} (hm : m.wf = true) (hm' : m'.wf = true) (hg : m.generation = m'.generation)
    (h : ∀ a, Memory.lookup m.cells a = Memory.lookup m'.cells a) : m = m' := by
  cases m; cases m'
  simp only [Memory.mk.injEq]
  exact ⟨Memory.cells_ext _ _ hm hm' h, hg⟩

end Sys2Proof.Machine
end

