-- ==== Sys2Proof/Laws/State.lean ====
section
/-! SUPPORT. One lemma per field per named record update, each true by rfl: later proofs cite these and never unfold an update. -/

namespace Sys2Proof.Machine

section
variable (e : ErrorKind) (s : State)

@[simp] theorem State.raise_inLen : (s.raise e).inLen = s.inLen := rfl
@[simp] theorem State.raise_status : (s.raise e).status = statusWord false true true := rfl
@[simp] theorem State.raise_errcode : (s.raise e).errcode = e.code.setWidth 32 := rfl
@[simp] theorem State.raise_outLen : (s.raise e).outLen = 0 := rfl
@[simp] theorem State.raise_op : (s.raise e).op = s.op := rfl
@[simp] theorem State.raise_mode : (s.raise e).mode = s.mode := rfl
@[simp] theorem State.raise_ilenCmd : (s.raise e).ilenCmd = s.ilenCmd := rfl
@[simp] theorem State.raise_phase : (s.raise e).phase = .idle := rfl
@[simp] theorem State.raise_ip : (s.raise e).ip = s.ip := rfl
@[simp] theorem State.raise_ilen : (s.raise e).ilen = s.ilen := rfl
@[simp] theorem State.raise_size : (s.raise e).size = s.size := rfl
@[simp] theorem State.raise_olen : (s.raise e).olen = s.olen := rfl
@[simp] theorem State.raise_flags : (s.raise e).flags = s.flags := rfl
@[simp] theorem State.raise_mask : (s.raise e).mask = s.mask := rfl
@[simp] theorem State.raise_len : (s.raise e).len = s.len := rfl
@[simp] theorem State.raise_disp : (s.raise e).disp = s.disp := rfl
@[simp] theorem State.raise_wp : (s.raise e).wp = s.wp := rfl
@[simp] theorem State.raise_pos : (s.raise e).pos = s.pos := rfl
@[simp] theorem State.raise_n : (s.raise e).n = s.n := rfl
@[simp] theorem State.raise_mlen : (s.raise e).mlen = s.mlen := rfl
@[simp] theorem State.raise_mdisp : (s.raise e).mdisp = s.mdisp := rfl
@[simp] theorem State.raise_gflags : (s.raise e).gflags = s.gflags := rfl
@[simp] theorem State.raise_gcount : (s.raise e).gcount = s.gcount := rfl
@[simp] theorem State.raise_wlen : (s.raise e).wlen = s.wlen := rfl
@[simp] theorem State.raise_gbuf : (s.raise e).gbuf = s.gbuf := rfl
@[simp] theorem State.raise_tag : (s.raise e).tag = s.tag := rfl
@[simp] theorem State.raise_seed : (s.raise e).seed = s.seed := rfl
@[simp] theorem State.raise_blen : (s.raise e).blen = s.blen := rfl
@[simp] theorem State.raise_key : (s.raise e).key = s.key := rfl
@[simp] theorem State.raise_xp : (s.raise e).xp = s.xp := rfl
@[simp] theorem State.raise_inp : (s.raise e).inp = s.inp := rfl
@[simp] theorem State.raise_out : (s.raise e).out = Memory.empty s.free := rfl
@[simp] theorem State.raise_work : (s.raise e).work = s.work := rfl
@[simp] theorem State.raise_hist : (s.raise e).hist = s.hist := rfl
@[simp] theorem State.raise_free : (s.raise e).free = s.free + 1 := rfl
@[simp] theorem State.raise_bus : (s.raise e).bus = s.bus := rfl
@[simp] theorem State.raise_turns : (s.raise e).turns = s.turns := rfl

end

section
variable (r : Word) (s : State)

@[simp] theorem State.complete_inLen : (s.complete r).inLen = s.inLen := rfl
@[simp] theorem State.complete_status : (s.complete r).status = statusWord false true false := rfl
@[simp] theorem State.complete_errcode : (s.complete r).errcode = 0 := rfl
@[simp] theorem State.complete_outLen : (s.complete r).outLen = r := rfl
@[simp] theorem State.complete_op : (s.complete r).op = s.op := rfl
@[simp] theorem State.complete_mode : (s.complete r).mode = s.mode := rfl
@[simp] theorem State.complete_ilenCmd : (s.complete r).ilenCmd = s.ilenCmd := rfl
@[simp] theorem State.complete_phase : (s.complete r).phase = .idle := rfl
@[simp] theorem State.complete_ip : (s.complete r).ip = s.ip := rfl
@[simp] theorem State.complete_ilen : (s.complete r).ilen = s.ilen := rfl
@[simp] theorem State.complete_size : (s.complete r).size = s.size := rfl
@[simp] theorem State.complete_olen : (s.complete r).olen = s.olen := rfl
@[simp] theorem State.complete_flags : (s.complete r).flags = s.flags := rfl
@[simp] theorem State.complete_mask : (s.complete r).mask = s.mask := rfl
@[simp] theorem State.complete_len : (s.complete r).len = s.len := rfl
@[simp] theorem State.complete_disp : (s.complete r).disp = s.disp := rfl
@[simp] theorem State.complete_wp : (s.complete r).wp = s.wp := rfl
@[simp] theorem State.complete_pos : (s.complete r).pos = s.pos := rfl
@[simp] theorem State.complete_n : (s.complete r).n = s.n := rfl
@[simp] theorem State.complete_mlen : (s.complete r).mlen = s.mlen := rfl
@[simp] theorem State.complete_mdisp : (s.complete r).mdisp = s.mdisp := rfl
@[simp] theorem State.complete_gflags : (s.complete r).gflags = s.gflags := rfl
@[simp] theorem State.complete_gcount : (s.complete r).gcount = s.gcount := rfl
@[simp] theorem State.complete_wlen : (s.complete r).wlen = s.wlen := rfl
@[simp] theorem State.complete_gbuf : (s.complete r).gbuf = s.gbuf := rfl
@[simp] theorem State.complete_tag : (s.complete r).tag = s.tag := rfl
@[simp] theorem State.complete_seed : (s.complete r).seed = s.seed := rfl
@[simp] theorem State.complete_blen : (s.complete r).blen = s.blen := rfl
@[simp] theorem State.complete_key : (s.complete r).key = s.key := rfl
@[simp] theorem State.complete_xp : (s.complete r).xp = s.xp := rfl
@[simp] theorem State.complete_inp : (s.complete r).inp = s.inp := rfl
@[simp] theorem State.complete_out : (s.complete r).out = s.out := rfl
@[simp] theorem State.complete_work : (s.complete r).work = s.work := rfl
@[simp] theorem State.complete_hist : (s.complete r).hist = s.hist := rfl
@[simp] theorem State.complete_free : (s.complete r).free = s.free := rfl
@[simp] theorem State.complete_bus : (s.complete r).bus = s.bus := rfl
@[simp] theorem State.complete_turns : (s.complete r).turns = s.turns := rfl

end

section
variable (o : BitVec 3) (m : BitVec 1) (s : State)

@[simp] theorem State.start_inLen : (s.start o m).inLen = s.inLen := rfl
@[simp] theorem State.start_status : (s.start o m).status = statusWord true false false := rfl
@[simp] theorem State.start_errcode : (s.start o m).errcode = 0 := rfl
@[simp] theorem State.start_outLen : (s.start o m).outLen = 0 := rfl
@[simp] theorem State.start_op : (s.start o m).op = o := rfl
@[simp] theorem State.start_mode : (s.start o m).mode = m := rfl
@[simp] theorem State.start_ilenCmd : (s.start o m).ilenCmd = s.inLen := rfl
@[simp] theorem State.start_phase : (s.start o m).phase = s.phase := rfl
@[simp] theorem State.start_ip : (s.start o m).ip = 0 := rfl
@[simp] theorem State.start_ilen : (s.start o m).ilen = Config.freeValue 32 (s.free + 10) := rfl
@[simp] theorem State.start_size : (s.start o m).size = Config.freeValue 32 s.free := rfl
@[simp] theorem State.start_olen : (s.start o m).olen = 0 := rfl
@[simp] theorem State.start_flags : (s.start o m).flags = 0 := rfl
@[simp] theorem State.start_mask : (s.start o m).mask = 0 := rfl
@[simp] theorem State.start_len : (s.start o m).len = Config.freeValue 17 (s.free + 1) := rfl
@[simp] theorem State.start_disp : (s.start o m).disp = Config.freeValue 13 (s.free + 2) := rfl
@[simp] theorem State.start_wp : (s.start o m).wp = 0 := rfl
@[simp] theorem State.start_pos : (s.start o m).pos = 0 := rfl
@[simp] theorem State.start_n : (s.start o m).n = Config.freeValue 32 (s.free + 11) := rfl
@[simp] theorem State.start_mlen : (s.start o m).mlen = Config.freeValue 17 (s.free + 3) := rfl
@[simp] theorem State.start_mdisp : (s.start o m).mdisp = Config.freeValue 13 (s.free + 4) := rfl
@[simp] theorem State.start_gflags : (s.start o m).gflags = 0 := rfl
@[simp] theorem State.start_gcount : (s.start o m).gcount = 0 := rfl
@[simp] theorem State.start_wlen : (s.start o m).wlen = 0 := rfl
@[simp] theorem State.start_gbuf : (s.start o m).gbuf = [] := rfl
@[simp] theorem State.start_tag : (s.start o m).tag = Config.freeValue 8 (s.free + 5) := rfl
@[simp] theorem State.start_seed : (s.start o m).seed = Config.freeValue 24 (s.free + 6) := rfl
@[simp] theorem State.start_blen : (s.start o m).blen = Config.freeValue 32 (s.free + 9) := rfl
@[simp] theorem State.start_key : (s.start o m).key = Config.freeValue 32 (s.free + 7) := rfl
@[simp] theorem State.start_xp : (s.start o m).xp = Config.freeValue 32 (s.free + 8) := rfl
@[simp] theorem State.start_inp : (s.start o m).inp = s.inp := rfl
@[simp] theorem State.start_out : (s.start o m).out = Memory.empty s.free := rfl
@[simp] theorem State.start_work : (s.start o m).work = Memory.empty s.free := rfl
@[simp] theorem State.start_hist : (s.start o m).hist = Memory.empty s.free := rfl
@[simp] theorem State.start_free : (s.start o m).free = s.free + 12 := rfl
@[simp] theorem State.start_bus : (s.start o m).bus = s.bus := rfl
@[simp] theorem State.start_turns : (s.start o m).turns = s.turns := rfl

end

section
variable (k : Nat) (s : State)

@[simp] theorem State.advance_inLen : (s.advance k).inLen = s.inLen := rfl
@[simp] theorem State.advance_status : (s.advance k).status = s.status := rfl
@[simp] theorem State.advance_errcode : (s.advance k).errcode = s.errcode := rfl
@[simp] theorem State.advance_outLen : (s.advance k).outLen = s.outLen := rfl
@[simp] theorem State.advance_op : (s.advance k).op = s.op := rfl
@[simp] theorem State.advance_mode : (s.advance k).mode = s.mode := rfl
@[simp] theorem State.advance_ilenCmd : (s.advance k).ilenCmd = s.ilenCmd := rfl
@[simp] theorem State.advance_phase : (s.advance k).phase = s.phase := rfl
@[simp] theorem State.advance_ip : (s.advance k).ip = s.ip + BitVec.ofNat 32 k := rfl
@[simp] theorem State.advance_ilen : (s.advance k).ilen = s.ilen := rfl
@[simp] theorem State.advance_size : (s.advance k).size = s.size := rfl
@[simp] theorem State.advance_olen : (s.advance k).olen = s.olen := rfl
@[simp] theorem State.advance_flags : (s.advance k).flags = s.flags := rfl
@[simp] theorem State.advance_mask : (s.advance k).mask = s.mask := rfl
@[simp] theorem State.advance_len : (s.advance k).len = s.len := rfl
@[simp] theorem State.advance_disp : (s.advance k).disp = s.disp := rfl
@[simp] theorem State.advance_wp : (s.advance k).wp = s.wp := rfl
@[simp] theorem State.advance_pos : (s.advance k).pos = s.pos := rfl
@[simp] theorem State.advance_n : (s.advance k).n = s.n := rfl
@[simp] theorem State.advance_mlen : (s.advance k).mlen = s.mlen := rfl
@[simp] theorem State.advance_mdisp : (s.advance k).mdisp = s.mdisp := rfl
@[simp] theorem State.advance_gflags : (s.advance k).gflags = s.gflags := rfl
@[simp] theorem State.advance_gcount : (s.advance k).gcount = s.gcount := rfl
@[simp] theorem State.advance_wlen : (s.advance k).wlen = s.wlen := rfl
@[simp] theorem State.advance_gbuf : (s.advance k).gbuf = s.gbuf := rfl
@[simp] theorem State.advance_tag : (s.advance k).tag = s.tag := rfl
@[simp] theorem State.advance_seed : (s.advance k).seed = s.seed := rfl
@[simp] theorem State.advance_blen : (s.advance k).blen = s.blen := rfl
@[simp] theorem State.advance_key : (s.advance k).key = s.key := rfl
@[simp] theorem State.advance_xp : (s.advance k).xp = s.xp := rfl
@[simp] theorem State.advance_inp : (s.advance k).inp = s.inp := rfl
@[simp] theorem State.advance_out : (s.advance k).out = s.out := rfl
@[simp] theorem State.advance_work : (s.advance k).work = s.work := rfl
@[simp] theorem State.advance_hist : (s.advance k).hist = s.hist := rfl
@[simp] theorem State.advance_free : (s.advance k).free = s.free := rfl
@[simp] theorem State.advance_bus : (s.advance k).bus = s.bus := rfl
@[simp] theorem State.advance_turns : (s.advance k).turns = s.turns := rfl

end

section
variable (b : Byte) (s : State)

@[simp] theorem State.produce_inLen : (s.produce b).inLen = s.inLen := rfl
@[simp] theorem State.produce_status : (s.produce b).status = s.status := rfl
@[simp] theorem State.produce_errcode : (s.produce b).errcode = s.errcode := rfl
@[simp] theorem State.produce_outLen : (s.produce b).outLen = s.outLen := rfl
@[simp] theorem State.produce_op : (s.produce b).op = s.op := rfl
@[simp] theorem State.produce_mode : (s.produce b).mode = s.mode := rfl
@[simp] theorem State.produce_ilenCmd : (s.produce b).ilenCmd = s.ilenCmd := rfl
@[simp] theorem State.produce_phase : (s.produce b).phase = s.phase := rfl
@[simp] theorem State.produce_ip : (s.produce b).ip = s.ip := rfl
@[simp] theorem State.produce_ilen : (s.produce b).ilen = s.ilen := rfl
@[simp] theorem State.produce_size : (s.produce b).size = s.size := rfl
@[simp] theorem State.produce_olen : (s.produce b).olen = s.olen + 1 := rfl
@[simp] theorem State.produce_flags : (s.produce b).flags = s.flags := rfl
@[simp] theorem State.produce_mask : (s.produce b).mask = s.mask := rfl
@[simp] theorem State.produce_len : (s.produce b).len = s.len := rfl
@[simp] theorem State.produce_disp : (s.produce b).disp = s.disp := rfl
@[simp] theorem State.produce_wp : (s.produce b).wp = s.wp + 1 := rfl
@[simp] theorem State.produce_pos : (s.produce b).pos = s.pos := rfl
@[simp] theorem State.produce_n : (s.produce b).n = s.n := rfl
@[simp] theorem State.produce_mlen : (s.produce b).mlen = s.mlen := rfl
@[simp] theorem State.produce_mdisp : (s.produce b).mdisp = s.mdisp := rfl
@[simp] theorem State.produce_gflags : (s.produce b).gflags = s.gflags := rfl
@[simp] theorem State.produce_gcount : (s.produce b).gcount = s.gcount := rfl
@[simp] theorem State.produce_wlen : (s.produce b).wlen = s.wlen := rfl
@[simp] theorem State.produce_gbuf : (s.produce b).gbuf = s.gbuf := rfl
@[simp] theorem State.produce_tag : (s.produce b).tag = s.tag := rfl
@[simp] theorem State.produce_seed : (s.produce b).seed = s.seed := rfl
@[simp] theorem State.produce_blen : (s.produce b).blen = s.blen := rfl
@[simp] theorem State.produce_key : (s.produce b).key = s.key := rfl
@[simp] theorem State.produce_xp : (s.produce b).xp = s.xp := rfl
@[simp] theorem State.produce_inp : (s.produce b).inp = s.inp := rfl
@[simp] theorem State.produce_out : (s.produce b).out = s.out.write s.olen.toNat b := rfl
@[simp] theorem State.produce_work : (s.produce b).work = s.work := rfl
@[simp] theorem State.produce_hist : (s.produce b).hist = s.hist.write s.wp.toNat b := rfl
@[simp] theorem State.produce_free : (s.produce b).free = s.free := rfl
@[simp] theorem State.produce_bus : (s.produce b).bus = s.bus := rfl
@[simp] theorem State.produce_turns : (s.produce b).turns = s.turns := rfl

end

section
variable (l : BitVec 17) (d : BitVec 13) (s : State)

@[simp] theorem State.setOperands_inLen : (s.setOperands l d).inLen = s.inLen := rfl
@[simp] theorem State.setOperands_status : (s.setOperands l d).status = s.status := rfl
@[simp] theorem State.setOperands_errcode : (s.setOperands l d).errcode = s.errcode := rfl
@[simp] theorem State.setOperands_outLen : (s.setOperands l d).outLen = s.outLen := rfl
@[simp] theorem State.setOperands_op : (s.setOperands l d).op = s.op := rfl
@[simp] theorem State.setOperands_mode : (s.setOperands l d).mode = s.mode := rfl
@[simp] theorem State.setOperands_ilenCmd : (s.setOperands l d).ilenCmd = s.ilenCmd := rfl
@[simp] theorem State.setOperands_phase : (s.setOperands l d).phase = s.phase := rfl
@[simp] theorem State.setOperands_ip : (s.setOperands l d).ip = s.ip := rfl
@[simp] theorem State.setOperands_ilen : (s.setOperands l d).ilen = s.ilen := rfl
@[simp] theorem State.setOperands_size : (s.setOperands l d).size = s.size := rfl
@[simp] theorem State.setOperands_olen : (s.setOperands l d).olen = s.olen := rfl
@[simp] theorem State.setOperands_flags : (s.setOperands l d).flags = s.flags := rfl
@[simp] theorem State.setOperands_mask : (s.setOperands l d).mask = s.mask := rfl
@[simp] theorem State.setOperands_len : (s.setOperands l d).len = l := rfl
@[simp] theorem State.setOperands_disp : (s.setOperands l d).disp = d := rfl
@[simp] theorem State.setOperands_wp : (s.setOperands l d).wp = s.wp := rfl
@[simp] theorem State.setOperands_pos : (s.setOperands l d).pos = s.pos := rfl
@[simp] theorem State.setOperands_n : (s.setOperands l d).n = s.n := rfl
@[simp] theorem State.setOperands_mlen : (s.setOperands l d).mlen = s.mlen := rfl
@[simp] theorem State.setOperands_mdisp : (s.setOperands l d).mdisp = s.mdisp := rfl
@[simp] theorem State.setOperands_gflags : (s.setOperands l d).gflags = s.gflags := rfl
@[simp] theorem State.setOperands_gcount : (s.setOperands l d).gcount = s.gcount := rfl
@[simp] theorem State.setOperands_wlen : (s.setOperands l d).wlen = s.wlen := rfl
@[simp] theorem State.setOperands_gbuf : (s.setOperands l d).gbuf = s.gbuf := rfl
@[simp] theorem State.setOperands_tag : (s.setOperands l d).tag = s.tag := rfl
@[simp] theorem State.setOperands_seed : (s.setOperands l d).seed = s.seed := rfl
@[simp] theorem State.setOperands_blen : (s.setOperands l d).blen = s.blen := rfl
@[simp] theorem State.setOperands_key : (s.setOperands l d).key = s.key := rfl
@[simp] theorem State.setOperands_xp : (s.setOperands l d).xp = s.xp := rfl
@[simp] theorem State.setOperands_inp : (s.setOperands l d).inp = s.inp := rfl
@[simp] theorem State.setOperands_out : (s.setOperands l d).out = s.out := rfl
@[simp] theorem State.setOperands_work : (s.setOperands l d).work = s.work := rfl
@[simp] theorem State.setOperands_hist : (s.setOperands l d).hist = s.hist := rfl
@[simp] theorem State.setOperands_free : (s.setOperands l d).free = s.free := rfl
@[simp] theorem State.setOperands_bus : (s.setOperands l d).bus = s.bus := rfl
@[simp] theorem State.setOperands_turns : (s.setOperands l d).turns = s.turns := rfl

end

section
variable (f : BitVec 8) (s : State)

@[simp] theorem State.loadFlags_inLen : (s.loadFlags f).inLen = s.inLen := rfl
@[simp] theorem State.loadFlags_status : (s.loadFlags f).status = s.status := rfl
@[simp] theorem State.loadFlags_errcode : (s.loadFlags f).errcode = s.errcode := rfl
@[simp] theorem State.loadFlags_outLen : (s.loadFlags f).outLen = s.outLen := rfl
@[simp] theorem State.loadFlags_op : (s.loadFlags f).op = s.op := rfl
@[simp] theorem State.loadFlags_mode : (s.loadFlags f).mode = s.mode := rfl
@[simp] theorem State.loadFlags_ilenCmd : (s.loadFlags f).ilenCmd = s.ilenCmd := rfl
@[simp] theorem State.loadFlags_phase : (s.loadFlags f).phase = s.phase := rfl
@[simp] theorem State.loadFlags_ip : (s.loadFlags f).ip = s.ip := rfl
@[simp] theorem State.loadFlags_ilen : (s.loadFlags f).ilen = s.ilen := rfl
@[simp] theorem State.loadFlags_size : (s.loadFlags f).size = s.size := rfl
@[simp] theorem State.loadFlags_olen : (s.loadFlags f).olen = s.olen := rfl
@[simp] theorem State.loadFlags_flags : (s.loadFlags f).flags = f := rfl
@[simp] theorem State.loadFlags_mask : (s.loadFlags f).mask = 0x80 := rfl
@[simp] theorem State.loadFlags_len : (s.loadFlags f).len = s.len := rfl
@[simp] theorem State.loadFlags_disp : (s.loadFlags f).disp = s.disp := rfl
@[simp] theorem State.loadFlags_wp : (s.loadFlags f).wp = s.wp := rfl
@[simp] theorem State.loadFlags_pos : (s.loadFlags f).pos = s.pos := rfl
@[simp] theorem State.loadFlags_n : (s.loadFlags f).n = s.n := rfl
@[simp] theorem State.loadFlags_mlen : (s.loadFlags f).mlen = s.mlen := rfl
@[simp] theorem State.loadFlags_mdisp : (s.loadFlags f).mdisp = s.mdisp := rfl
@[simp] theorem State.loadFlags_gflags : (s.loadFlags f).gflags = s.gflags := rfl
@[simp] theorem State.loadFlags_gcount : (s.loadFlags f).gcount = s.gcount := rfl
@[simp] theorem State.loadFlags_wlen : (s.loadFlags f).wlen = s.wlen := rfl
@[simp] theorem State.loadFlags_gbuf : (s.loadFlags f).gbuf = s.gbuf := rfl
@[simp] theorem State.loadFlags_tag : (s.loadFlags f).tag = s.tag := rfl
@[simp] theorem State.loadFlags_seed : (s.loadFlags f).seed = s.seed := rfl
@[simp] theorem State.loadFlags_blen : (s.loadFlags f).blen = s.blen := rfl
@[simp] theorem State.loadFlags_key : (s.loadFlags f).key = s.key := rfl
@[simp] theorem State.loadFlags_xp : (s.loadFlags f).xp = s.xp := rfl
@[simp] theorem State.loadFlags_inp : (s.loadFlags f).inp = s.inp := rfl
@[simp] theorem State.loadFlags_out : (s.loadFlags f).out = s.out := rfl
@[simp] theorem State.loadFlags_work : (s.loadFlags f).work = s.work := rfl
@[simp] theorem State.loadFlags_hist : (s.loadFlags f).hist = s.hist := rfl
@[simp] theorem State.loadFlags_free : (s.loadFlags f).free = s.free := rfl
@[simp] theorem State.loadFlags_bus : (s.loadFlags f).bus = s.bus := rfl
@[simp] theorem State.loadFlags_turns : (s.loadFlags f).turns = s.turns := rfl

end

section
variable (s : State)

@[simp] theorem State.classified_inLen : (s.classified).inLen = s.inLen := rfl
@[simp] theorem State.classified_status : (s.classified).status = s.status := rfl
@[simp] theorem State.classified_errcode : (s.classified).errcode = s.errcode := rfl
@[simp] theorem State.classified_outLen : (s.classified).outLen = s.outLen := rfl
@[simp] theorem State.classified_op : (s.classified).op = s.op := rfl
@[simp] theorem State.classified_mode : (s.classified).mode = s.mode := rfl
@[simp] theorem State.classified_ilenCmd : (s.classified).ilenCmd = s.ilenCmd := rfl
@[simp] theorem State.classified_phase : (s.classified).phase = s.phase := rfl
@[simp] theorem State.classified_ip : (s.classified).ip = s.ip := rfl
@[simp] theorem State.classified_ilen : (s.classified).ilen = s.ilen := rfl
@[simp] theorem State.classified_size : (s.classified).size = s.size := rfl
@[simp] theorem State.classified_olen : (s.classified).olen = s.olen := rfl
@[simp] theorem State.classified_flags : (s.classified).flags = s.flags := rfl
@[simp] theorem State.classified_mask : (s.classified).mask = s.mask >>> 1 := rfl
@[simp] theorem State.classified_len : (s.classified).len = s.len := rfl
@[simp] theorem State.classified_disp : (s.classified).disp = s.disp := rfl
@[simp] theorem State.classified_wp : (s.classified).wp = s.wp := rfl
@[simp] theorem State.classified_pos : (s.classified).pos = s.pos := rfl
@[simp] theorem State.classified_n : (s.classified).n = s.n := rfl
@[simp] theorem State.classified_mlen : (s.classified).mlen = s.mlen := rfl
@[simp] theorem State.classified_mdisp : (s.classified).mdisp = s.mdisp := rfl
@[simp] theorem State.classified_gflags : (s.classified).gflags = s.gflags := rfl
@[simp] theorem State.classified_gcount : (s.classified).gcount = s.gcount := rfl
@[simp] theorem State.classified_wlen : (s.classified).wlen = s.wlen := rfl
@[simp] theorem State.classified_gbuf : (s.classified).gbuf = s.gbuf := rfl
@[simp] theorem State.classified_tag : (s.classified).tag = s.tag := rfl
@[simp] theorem State.classified_seed : (s.classified).seed = s.seed := rfl
@[simp] theorem State.classified_blen : (s.classified).blen = s.blen := rfl
@[simp] theorem State.classified_key : (s.classified).key = s.key := rfl
@[simp] theorem State.classified_xp : (s.classified).xp = s.xp := rfl
@[simp] theorem State.classified_inp : (s.classified).inp = s.inp := rfl
@[simp] theorem State.classified_out : (s.classified).out = s.out := rfl
@[simp] theorem State.classified_work : (s.classified).work = s.work := rfl
@[simp] theorem State.classified_hist : (s.classified).hist = s.hist := rfl
@[simp] theorem State.classified_free : (s.classified).free = s.free := rfl
@[simp] theorem State.classified_bus : (s.classified).bus = s.bus := rfl
@[simp] theorem State.classified_turns : (s.classified).turns = s.turns := rfl

end

section
variable (s : State)

@[simp] theorem State.decoderInit_inLen : (s.decoderInit).inLen = s.inLen := rfl
@[simp] theorem State.decoderInit_status : (s.decoderInit).status = s.status := rfl
@[simp] theorem State.decoderInit_errcode : (s.decoderInit).errcode = s.errcode := rfl
@[simp] theorem State.decoderInit_outLen : (s.decoderInit).outLen = s.outLen := rfl
@[simp] theorem State.decoderInit_op : (s.decoderInit).op = s.op := rfl
@[simp] theorem State.decoderInit_mode : (s.decoderInit).mode = s.mode := rfl
@[simp] theorem State.decoderInit_ilenCmd : (s.decoderInit).ilenCmd = s.ilenCmd := rfl
@[simp] theorem State.decoderInit_phase : (s.decoderInit).phase = s.phase := rfl
@[simp] theorem State.decoderInit_ip : (s.decoderInit).ip = 0 := rfl
@[simp] theorem State.decoderInit_ilen : (s.decoderInit).ilen = s.ilen := rfl
@[simp] theorem State.decoderInit_size : (s.decoderInit).size = s.size := rfl
@[simp] theorem State.decoderInit_olen : (s.decoderInit).olen = 0 := rfl
@[simp] theorem State.decoderInit_flags : (s.decoderInit).flags = 0 := rfl
@[simp] theorem State.decoderInit_mask : (s.decoderInit).mask = 0 := rfl
@[simp] theorem State.decoderInit_len : (s.decoderInit).len = s.len := rfl
@[simp] theorem State.decoderInit_disp : (s.decoderInit).disp = s.disp := rfl
@[simp] theorem State.decoderInit_wp : (s.decoderInit).wp = 0 := rfl
@[simp] theorem State.decoderInit_pos : (s.decoderInit).pos = s.pos := rfl
@[simp] theorem State.decoderInit_n : (s.decoderInit).n = s.n := rfl
@[simp] theorem State.decoderInit_mlen : (s.decoderInit).mlen = s.mlen := rfl
@[simp] theorem State.decoderInit_mdisp : (s.decoderInit).mdisp = s.mdisp := rfl
@[simp] theorem State.decoderInit_gflags : (s.decoderInit).gflags = s.gflags := rfl
@[simp] theorem State.decoderInit_gcount : (s.decoderInit).gcount = s.gcount := rfl
@[simp] theorem State.decoderInit_wlen : (s.decoderInit).wlen = s.wlen := rfl
@[simp] theorem State.decoderInit_gbuf : (s.decoderInit).gbuf = s.gbuf := rfl
@[simp] theorem State.decoderInit_tag : (s.decoderInit).tag = s.tag := rfl
@[simp] theorem State.decoderInit_seed : (s.decoderInit).seed = s.seed := rfl
@[simp] theorem State.decoderInit_blen : (s.decoderInit).blen = s.blen := rfl
@[simp] theorem State.decoderInit_key : (s.decoderInit).key = s.key := rfl
@[simp] theorem State.decoderInit_xp : (s.decoderInit).xp = s.xp := rfl
@[simp] theorem State.decoderInit_inp : (s.decoderInit).inp = s.inp := rfl
@[simp] theorem State.decoderInit_out : (s.decoderInit).out = s.out := rfl
@[simp] theorem State.decoderInit_work : (s.decoderInit).work = s.work := rfl
@[simp] theorem State.decoderInit_hist : (s.decoderInit).hist = s.hist := rfl
@[simp] theorem State.decoderInit_free : (s.decoderInit).free = s.free := rfl
@[simp] theorem State.decoderInit_bus : (s.decoderInit).bus = s.bus := rfl
@[simp] theorem State.decoderInit_turns : (s.decoderInit).turns = s.turns := rfl

end

section
variable (l : Word) (s : State)

@[simp] theorem State.startDecoder_inLen : (s.startDecoder l).inLen = s.inLen := rfl
@[simp] theorem State.startDecoder_status : (s.startDecoder l).status = s.status := rfl
@[simp] theorem State.startDecoder_errcode : (s.startDecoder l).errcode = s.errcode := rfl
@[simp] theorem State.startDecoder_outLen : (s.startDecoder l).outLen = s.outLen := rfl
@[simp] theorem State.startDecoder_op : (s.startDecoder l).op = s.op := rfl
@[simp] theorem State.startDecoder_mode : (s.startDecoder l).mode = s.mode := rfl
@[simp] theorem State.startDecoder_ilenCmd : (s.startDecoder l).ilenCmd = s.ilenCmd := rfl
@[simp] theorem State.startDecoder_phase : (s.startDecoder l).phase = .header := rfl
@[simp] theorem State.startDecoder_ip : (s.startDecoder l).ip = 0 := rfl
@[simp] theorem State.startDecoder_ilen : (s.startDecoder l).ilen = l := rfl
@[simp] theorem State.startDecoder_size : (s.startDecoder l).size = s.size := rfl
@[simp] theorem State.startDecoder_olen : (s.startDecoder l).olen = 0 := rfl
@[simp] theorem State.startDecoder_flags : (s.startDecoder l).flags = 0 := rfl
@[simp] theorem State.startDecoder_mask : (s.startDecoder l).mask = 0 := rfl
@[simp] theorem State.startDecoder_len : (s.startDecoder l).len = s.len := rfl
@[simp] theorem State.startDecoder_disp : (s.startDecoder l).disp = s.disp := rfl
@[simp] theorem State.startDecoder_wp : (s.startDecoder l).wp = 0 := rfl
@[simp] theorem State.startDecoder_pos : (s.startDecoder l).pos = s.pos := rfl
@[simp] theorem State.startDecoder_n : (s.startDecoder l).n = s.n := rfl
@[simp] theorem State.startDecoder_mlen : (s.startDecoder l).mlen = s.mlen := rfl
@[simp] theorem State.startDecoder_mdisp : (s.startDecoder l).mdisp = s.mdisp := rfl
@[simp] theorem State.startDecoder_gflags : (s.startDecoder l).gflags = s.gflags := rfl
@[simp] theorem State.startDecoder_gcount : (s.startDecoder l).gcount = s.gcount := rfl
@[simp] theorem State.startDecoder_wlen : (s.startDecoder l).wlen = s.wlen := rfl
@[simp] theorem State.startDecoder_gbuf : (s.startDecoder l).gbuf = s.gbuf := rfl
@[simp] theorem State.startDecoder_tag : (s.startDecoder l).tag = s.tag := rfl
@[simp] theorem State.startDecoder_seed : (s.startDecoder l).seed = s.seed := rfl
@[simp] theorem State.startDecoder_blen : (s.startDecoder l).blen = s.blen := rfl
@[simp] theorem State.startDecoder_key : (s.startDecoder l).key = s.key := rfl
@[simp] theorem State.startDecoder_xp : (s.startDecoder l).xp = s.xp := rfl
@[simp] theorem State.startDecoder_inp : (s.startDecoder l).inp = s.inp := rfl
@[simp] theorem State.startDecoder_out : (s.startDecoder l).out = s.out := rfl
@[simp] theorem State.startDecoder_work : (s.startDecoder l).work = s.work := rfl
@[simp] theorem State.startDecoder_hist : (s.startDecoder l).hist = s.hist := rfl
@[simp] theorem State.startDecoder_free : (s.startDecoder l).free = s.free := rfl
@[simp] theorem State.startDecoder_bus : (s.startDecoder l).bus = s.bus := rfl
@[simp] theorem State.startDecoder_turns : (s.startDecoder l).turns = s.turns := rfl

end

section
variable (s : State)

@[simp] theorem State.startChain_inLen : (s.startChain).inLen = s.inLen := rfl
@[simp] theorem State.startChain_status : (s.startChain).status = s.status := rfl
@[simp] theorem State.startChain_errcode : (s.startChain).errcode = s.errcode := rfl
@[simp] theorem State.startChain_outLen : (s.startChain).outLen = s.outLen := rfl
@[simp] theorem State.startChain_op : (s.startChain).op = s.op := rfl
@[simp] theorem State.startChain_mode : (s.startChain).mode = s.mode := rfl
@[simp] theorem State.startChain_ilenCmd : (s.startChain).ilenCmd = s.ilenCmd := rfl
@[simp] theorem State.startChain_phase : (s.startChain).phase = s.phase := rfl
@[simp] theorem State.startChain_ip : (s.startChain).ip = s.ip := rfl
@[simp] theorem State.startChain_ilen : (s.startChain).ilen = s.ilen := rfl
@[simp] theorem State.startChain_size : (s.startChain).size = s.size := rfl
@[simp] theorem State.startChain_olen : (s.startChain).olen = s.olen := rfl
@[simp] theorem State.startChain_flags : (s.startChain).flags = s.flags := rfl
@[simp] theorem State.startChain_mask : (s.startChain).mask = s.mask := rfl
@[simp] theorem State.startChain_len : (s.startChain).len = s.len := rfl
@[simp] theorem State.startChain_disp : (s.startChain).disp = s.disp := rfl
@[simp] theorem State.startChain_wp : (s.startChain).wp = s.wp := rfl
@[simp] theorem State.startChain_pos : (s.startChain).pos = s.pos := rfl
@[simp] theorem State.startChain_n : (s.startChain).n = s.n := rfl
@[simp] theorem State.startChain_mlen : (s.startChain).mlen = s.mlen := rfl
@[simp] theorem State.startChain_mdisp : (s.startChain).mdisp = s.mdisp := rfl
@[simp] theorem State.startChain_gflags : (s.startChain).gflags = s.gflags := rfl
@[simp] theorem State.startChain_gcount : (s.startChain).gcount = s.gcount := rfl
@[simp] theorem State.startChain_wlen : (s.startChain).wlen = s.wlen := rfl
@[simp] theorem State.startChain_gbuf : (s.startChain).gbuf = s.gbuf := rfl
@[simp] theorem State.startChain_tag : (s.startChain).tag = s.tag := rfl
@[simp] theorem State.startChain_seed : (s.startChain).seed = s.seed := rfl
@[simp] theorem State.startChain_blen : (s.startChain).blen = s.blen := rfl
@[simp] theorem State.startChain_key : (s.startChain).key = initialKey s.seed := rfl
@[simp] theorem State.startChain_xp : (s.startChain).xp = regionStart s.tag := rfl
@[simp] theorem State.startChain_inp : (s.startChain).inp = s.inp := rfl
@[simp] theorem State.startChain_out : (s.startChain).out = s.out := rfl
@[simp] theorem State.startChain_work : (s.startChain).work = s.work := rfl
@[simp] theorem State.startChain_hist : (s.startChain).hist = s.hist := rfl
@[simp] theorem State.startChain_free : (s.startChain).free = s.free := rfl
@[simp] theorem State.startChain_bus : (s.startChain).bus = s.bus := rfl
@[simp] theorem State.startChain_turns : (s.startChain).turns = s.turns := rfl

end

section
variable (s : State)

@[simp] theorem State.decipherBlock_inLen : (s.decipherBlock).inLen = s.inLen := rfl
@[simp] theorem State.decipherBlock_status : (s.decipherBlock).status = s.status := rfl
@[simp] theorem State.decipherBlock_errcode : (s.decipherBlock).errcode = s.errcode := rfl
@[simp] theorem State.decipherBlock_outLen : (s.decipherBlock).outLen = s.outLen := rfl
@[simp] theorem State.decipherBlock_op : (s.decipherBlock).op = s.op := rfl
@[simp] theorem State.decipherBlock_mode : (s.decipherBlock).mode = s.mode := rfl
@[simp] theorem State.decipherBlock_ilenCmd : (s.decipherBlock).ilenCmd = s.ilenCmd := rfl
@[simp] theorem State.decipherBlock_phase : (s.decipherBlock).phase = s.phase := rfl
@[simp] theorem State.decipherBlock_ip : (s.decipherBlock).ip = s.ip := rfl
@[simp] theorem State.decipherBlock_ilen : (s.decipherBlock).ilen = s.ilen := rfl
@[simp] theorem State.decipherBlock_size : (s.decipherBlock).size = s.size := rfl
@[simp] theorem State.decipherBlock_olen : (s.decipherBlock).olen = s.olen := rfl
@[simp] theorem State.decipherBlock_flags : (s.decipherBlock).flags = s.flags := rfl
@[simp] theorem State.decipherBlock_mask : (s.decipherBlock).mask = s.mask := rfl
@[simp] theorem State.decipherBlock_len : (s.decipherBlock).len = s.len := rfl
@[simp] theorem State.decipherBlock_disp : (s.decipherBlock).disp = s.disp := rfl
@[simp] theorem State.decipherBlock_wp : (s.decipherBlock).wp = s.wp := rfl
@[simp] theorem State.decipherBlock_pos : (s.decipherBlock).pos = s.pos := rfl
@[simp] theorem State.decipherBlock_n : (s.decipherBlock).n = s.n := rfl
@[simp] theorem State.decipherBlock_mlen : (s.decipherBlock).mlen = s.mlen := rfl
@[simp] theorem State.decipherBlock_mdisp : (s.decipherBlock).mdisp = s.mdisp := rfl
@[simp] theorem State.decipherBlock_gflags : (s.decipherBlock).gflags = s.gflags := rfl
@[simp] theorem State.decipherBlock_gcount : (s.decipherBlock).gcount = s.gcount := rfl
@[simp] theorem State.decipherBlock_wlen : (s.decipherBlock).wlen = s.wlen := rfl
@[simp] theorem State.decipherBlock_gbuf : (s.decipherBlock).gbuf = s.gbuf := rfl
@[simp] theorem State.decipherBlock_tag : (s.decipherBlock).tag = s.tag := rfl
@[simp] theorem State.decipherBlock_seed : (s.decipherBlock).seed = s.seed := rfl
@[simp] theorem State.decipherBlock_blen : (s.decipherBlock).blen = s.blen := rfl
@[simp] theorem State.decipherBlock_key : (s.decipherBlock).key = s.key ^^^ (s.work.readWord .work s.xp.toNat ^^^ s.key) := rfl
@[simp] theorem State.decipherBlock_xp : (s.decipherBlock).xp = s.xp + 4 := rfl
@[simp] theorem State.decipherBlock_inp : (s.decipherBlock).inp = s.inp := rfl
@[simp] theorem State.decipherBlock_out : (s.decipherBlock).out = s.out := rfl
@[simp] theorem State.decipherBlock_work : (s.decipherBlock).work = s.work.writeWord s.xp.toNat (s.work.readWord .work s.xp.toNat ^^^ s.key) := rfl
@[simp] theorem State.decipherBlock_hist : (s.decipherBlock).hist = s.hist := rfl
@[simp] theorem State.decipherBlock_free : (s.decipherBlock).free = s.free := rfl
@[simp] theorem State.decipherBlock_bus : (s.decipherBlock).bus = s.bus := rfl
@[simp] theorem State.decipherBlock_turns : (s.decipherBlock).turns = s.turns := rfl

end

section
variable (s : State)

@[simp] theorem State.encipherBlock_inLen : (s.encipherBlock).inLen = s.inLen := rfl
@[simp] theorem State.encipherBlock_status : (s.encipherBlock).status = s.status := rfl
@[simp] theorem State.encipherBlock_errcode : (s.encipherBlock).errcode = s.errcode := rfl
@[simp] theorem State.encipherBlock_outLen : (s.encipherBlock).outLen = s.outLen := rfl
@[simp] theorem State.encipherBlock_op : (s.encipherBlock).op = s.op := rfl
@[simp] theorem State.encipherBlock_mode : (s.encipherBlock).mode = s.mode := rfl
@[simp] theorem State.encipherBlock_ilenCmd : (s.encipherBlock).ilenCmd = s.ilenCmd := rfl
@[simp] theorem State.encipherBlock_phase : (s.encipherBlock).phase = s.phase := rfl
@[simp] theorem State.encipherBlock_ip : (s.encipherBlock).ip = s.ip := rfl
@[simp] theorem State.encipherBlock_ilen : (s.encipherBlock).ilen = s.ilen := rfl
@[simp] theorem State.encipherBlock_size : (s.encipherBlock).size = s.size := rfl
@[simp] theorem State.encipherBlock_olen : (s.encipherBlock).olen = s.olen := rfl
@[simp] theorem State.encipherBlock_flags : (s.encipherBlock).flags = s.flags := rfl
@[simp] theorem State.encipherBlock_mask : (s.encipherBlock).mask = s.mask := rfl
@[simp] theorem State.encipherBlock_len : (s.encipherBlock).len = s.len := rfl
@[simp] theorem State.encipherBlock_disp : (s.encipherBlock).disp = s.disp := rfl
@[simp] theorem State.encipherBlock_wp : (s.encipherBlock).wp = s.wp := rfl
@[simp] theorem State.encipherBlock_pos : (s.encipherBlock).pos = s.pos := rfl
@[simp] theorem State.encipherBlock_n : (s.encipherBlock).n = s.n := rfl
@[simp] theorem State.encipherBlock_mlen : (s.encipherBlock).mlen = s.mlen := rfl
@[simp] theorem State.encipherBlock_mdisp : (s.encipherBlock).mdisp = s.mdisp := rfl
@[simp] theorem State.encipherBlock_gflags : (s.encipherBlock).gflags = s.gflags := rfl
@[simp] theorem State.encipherBlock_gcount : (s.encipherBlock).gcount = s.gcount := rfl
@[simp] theorem State.encipherBlock_wlen : (s.encipherBlock).wlen = s.wlen := rfl
@[simp] theorem State.encipherBlock_gbuf : (s.encipherBlock).gbuf = s.gbuf := rfl
@[simp] theorem State.encipherBlock_tag : (s.encipherBlock).tag = s.tag := rfl
@[simp] theorem State.encipherBlock_seed : (s.encipherBlock).seed = s.seed := rfl
@[simp] theorem State.encipherBlock_blen : (s.encipherBlock).blen = s.blen := rfl
@[simp] theorem State.encipherBlock_key : (s.encipherBlock).key = s.work.readWord .work s.xp.toNat ^^^ s.key := rfl
@[simp] theorem State.encipherBlock_xp : (s.encipherBlock).xp = s.xp + 4 := rfl
@[simp] theorem State.encipherBlock_inp : (s.encipherBlock).inp = s.inp := rfl
@[simp] theorem State.encipherBlock_out : (s.encipherBlock).out = s.out := rfl
@[simp] theorem State.encipherBlock_work : (s.encipherBlock).work = s.work.writeWord s.xp.toNat (s.work.readWord .work s.xp.toNat ^^^ s.key) := rfl
@[simp] theorem State.encipherBlock_hist : (s.encipherBlock).hist = s.hist := rfl
@[simp] theorem State.encipherBlock_free : (s.encipherBlock).free = s.free := rfl
@[simp] theorem State.encipherBlock_bus : (s.encipherBlock).bus = s.bus := rfl
@[simp] theorem State.encipherBlock_turns : (s.encipherBlock).turns = s.turns := rfl

end

end Sys2Proof.Machine
end

