-- ==== Sys2Proof/Laws/Ops.lean ====
section
/-! SUPPORT. What each shared operation can do, said once; later proofs cite these and do not unfold the operation. -/

namespace Sys2Proof.Machine

/-! ### Tests that may raise -/

/-- `requireBytes`: too few bytes raise `StreamTooShort`, else `f` runs. -/
theorem State.requireBytes_cases (k : Nat) (f : State → State) (s : State) :
    (s.avail < k ∧ s.requireBytes k f = s.raise .streamTooShort) ∨ (k ≤ s.avail ∧ s.requireBytes k f = f s) := by
  unfold State.requireBytes
  by_cases h : s.avail < k
  · exact .inl ⟨h, if_pos h⟩
  · exact .inr ⟨by omega, if_neg h⟩

/-- `startCommand`: ignored while busy, else the start and the command's rule. -/
theorem State.startCommand_cases (op : BitVec 3) (mode : BitVec 1) (run : State → State) (s : State) :
    (s.busy = true ∧ s.startCommand op mode run = s) ∨
      (s.busy = false ∧ s.startCommand op mode run = run (s.start op mode)) := by
  unfold State.startCommand
  cases h : s.busy
  · exact .inr ⟨rfl, by simp⟩
  · exact .inl ⟨rfl, by simp⟩

/-- The state in which an archive has been opened (R221). -/
def State.opened (tag : Byte) (seed : BitVec 24) (s : State) : State :=
  { s with
    tag := tag, seed := seed, blen := s.ilenCmd - 4
    work := Memory.copyFrom (fun a => s.inp.read .inp a) 4 0 (s.ilenCmd.toNat - 4) s.work }

theorem State.openArchive_cases (tag : Byte) (seed : BitVec 24) (f : State → State) (s : State) :
    (s.ilenCmd.toNat < 4 ∧ s.openArchive tag seed f = s.raise .invalidArchive) ∨
      (4 ≤ s.ilenCmd.toNat ∧ s.openArchive tag seed f = f (s.opened tag seed)) := by
  unfold State.openArchive
  by_cases h : s.ilenCmd.toNat < 4
  · exact .inl ⟨h, if_pos h⟩
  · exact .inr ⟨by omega, by rw [if_neg h]; rfl⟩

theorem State.startDecipher_cases (s : State) :
    (s.blen.toNat % 4 ≠ 0 ∧ s.startDecipher = s.raise .invalidArchive) ∨
      (s.blen.toNat % 4 = 0 ∧ s.startDecipher = { s.startChain with phase := .decipher }) := by
  unfold State.startDecipher Config.block
  by_cases h : s.blen.toNat % 4 = 0
  · exact .inr ⟨h, by simp [h]⟩
  · exact .inl ⟨h, by simp [h]⟩

/-- `backReference`: missing bytes, a displacement beyond the output, or the copy (R135, R139, R140). -/
theorem State.backReference_cases (k : Nat) (len : BitVec 17) (disp : BitVec 13) (s : State) :
    (s.avail < k ∧ s.backReference k len disp = s.raise .streamTooShort) ∨
      (k ≤ s.avail ∧ s.olen.toNat < disp.toNat ∧
        s.backReference k len disp = ((s.advance k).setOperands len disp).raise .invalidData) ∨
      (k ≤ s.avail ∧ disp.toNat ≤ s.olen.toNat ∧
        s.backReference k len disp = ((s.advance k).setOperands len disp).copyBytes len.toNat) := by
  unfold State.backReference
  rcases s.requireBytes_cases k (fun s =>
    let s := (s.advance k).setOperands len disp
    if s.olen.toNat < s.disp.toNat then s.raise .invalidData else s.copyBytes s.len.toNat) with ⟨h, e⟩ | ⟨h, e⟩
  · exact .inl ⟨h, e⟩
  · rw [e]
    by_cases hd : s.olen.toNat < disp.toNat
    · exact .inr (.inl ⟨h, hd, by simp [hd]⟩)
    · exact .inr (.inr ⟨h, by omega, by simp [hd]⟩)

/-! ### The copy -/

/-- A copy changes nothing but `OUT`, `HIST`, `olen` and `wp`. -/
theorem State.copyBytes_frame (k : Nat) (s : State) :
    { s.copyBytes k with out := s.out, hist := s.hist, olen := s.olen, wp := s.wp } = s := by
  induction k generalizing s with
  | zero => rfl
  | succ k ih =>
    unfold State.copyBytes
    split
    · have h := ih (s.produce s.historyByte)
      rw [State.mk.injEq] at h ⊢
      simpa using h
    · rfl

/-- How far a copy gets: `k` bytes, or up to the declared size (R145). -/
theorem State.copyBytes_olen (k : Nat) (s : State) (h : s.olen.toNat ≤ s.size.toNat) :
    (s.copyBytes k).olen.toNat = min (s.olen.toNat + k) s.size.toNat := by
  induction k generalizing s with
  | zero => simp [State.copyBytes]; omega
  | succ k ih =>
    unfold State.copyBytes
    have hs := s.size.isLt
    split
    · have hp : (s.produce s.historyByte).olen.toNat = s.olen.toNat + 1 := by simp [BitVec.toNat_add]; omega
      rw [ih _ (by rw [hp]; simpa using by omega), hp]
      simp; omega
    · omega

/-! ### The encoder's output -/

/-- The memory that the encoder's stream goes to. -/
def State.stream (s : State) : Memory := if s.op = opLzEnc then s.out else s.work

/-- `emit` appends to the stream and changes nothing but it and `wlen`. -/
theorem State.emit_cases (bytes : List Byte) (s : State) :
    (s.op = opLzEnc ∧ s.emit bytes =
        { s with out := s.out.writeAll s.wlen.toNat bytes, wlen := s.wlen + BitVec.ofNat 32 bytes.length }) ∨
      (s.op ≠ opLzEnc ∧ s.emit bytes =
        { s with work := s.work.writeAll s.wlen.toNat bytes, wlen := s.wlen + BitVec.ofNat 32 bytes.length }) := by
  unfold State.emit
  by_cases h : s.op = opLzEnc
  · exact .inl ⟨h, if_pos h⟩
  · exact .inr ⟨h, if_neg h⟩

theorem State.emit_frame (bytes : List Byte) (s : State) :
    { s.emit bytes with out := s.out, work := s.work, wlen := s.wlen } = s := by
  rcases s.emit_cases bytes with ⟨-, e⟩ | ⟨-, e⟩ <;> rw [e]

@[simp] theorem State.emit_wlen (bytes : List Byte) (s : State) :
    (s.emit bytes).wlen = s.wlen + BitVec.ofNat 32 bytes.length := by
  rcases s.emit_cases bytes with ⟨-, e⟩ | ⟨-, e⟩ <;> rw [e]

@[simp] theorem State.emit_op (bytes : List Byte) (s : State) : (s.emit bytes).op = s.op := by
  rcases s.emit_cases bytes with ⟨-, e⟩ | ⟨-, e⟩ <;> rw [e]

theorem State.emit_stream (bytes : List Byte) (s : State) :
    (s.emit bytes).stream = s.stream.writeAll s.wlen.toNat bytes := by
  rcases s.emit_cases bytes with ⟨h, e⟩ | ⟨h, e⟩ <;> simp [State.stream, e, h]

/-- `flush`: the flag byte and the group go out, and the group is empty again. -/
theorem State.flush_frame (s : State) :
    { s.flush with out := s.out, work := s.work, wlen := s.wlen, gflags := s.gflags, gcount := s.gcount, gbuf := s.gbuf } = s := by
  have h1 := (s.emit [s.gflags]).emit_frame s.gbuf
  have h2 := s.emit_frame [s.gflags]
  rw [State.mk.injEq] at h1 h2 ⊢
  simp only [State.flush] at *
  simp_all

@[simp] theorem State.flush_gflags (s : State) : s.flush.gflags = 0 := rfl
@[simp] theorem State.flush_gcount (s : State) : s.flush.gcount = 0 := rfl
@[simp] theorem State.flush_gbuf (s : State) : s.flush.gbuf = [] := rfl
@[simp] theorem State.flush_op (s : State) : s.flush.op = s.op := by simp [State.flush]

theorem State.flush_wlen (s : State) : s.flush.wlen = s.wlen + 1 + BitVec.ofNat 32 s.gbuf.length := by
  simp [State.flush]

/-- `flush` appends the flag byte and then the tokens to the stream. -/
theorem State.flush_stream (s : State) :
    s.flush.stream = (s.stream.writeAll s.wlen.toNat [s.gflags]).writeAll (s.wlen + 1).toNat s.gbuf := by
  have h : s.flush.stream = ((s.emit [s.gflags]).emit s.gbuf).stream := rfl
  rw [h, State.emit_stream, State.emit_stream, State.emit_wlen]
  rfl

/-- `account`: the token joins the group, and an eighth token sends the group out (R189, R190). -/
theorem State.account_cases (token : List Byte) (isRef : Bool) (s : State) :
    let joined : State := { s with
      gflags := groupFlags s.gflags s.gcount isRef, gbuf := s.gbuf ++ token, gcount := s.gcount + 1 }
    (joined.gcount.toNat ≠ 8 ∧ s.account token isRef = joined) ∨
      (joined.gcount.toNat = 8 ∧ s.account token isRef = joined.flush) := by
  intro joined
  by_cases h : joined.gcount.toNat = 8
  · exact .inr ⟨h, if_pos h⟩
  · exact .inl ⟨h, if_neg h⟩

/-! ### The match detector -/

/-- The detector changes nothing but its result registers and the counter of free values. -/
theorem State.detect_frame (s : State) : { s.detect with mlen := s.mlen, mdisp := s.mdisp, free := s.free } = s := by
  unfold State.detect
  split <;> rfl

/-- `matchLength` from `i` with `k` indices allowed lies between `i` and `i + k`, all indices before it match, and the one at it
does not unless the limit is reached (R162). -/
theorem matchLength_spec (x : Nat → Byte) (pos d k i : Nat) :
    i ≤ matchLength x pos d k i ∧ matchLength x pos d k i ≤ i + k ∧
      (∀ j, i ≤ j → j < matchLength x pos d k i → x (pos + j) = x (pos - d + j)) ∧
      (matchLength x pos d k i < i + k →
        x (pos + matchLength x pos d k i) ≠ x (pos - d + matchLength x pos d k i)) := by
  induction k generalizing i with
  | zero => simp [matchLength]; omega
  | succ k ih =>
    unfold matchLength
    split
    · obtain ⟨h1, h2, h3, h4⟩ := ih (i + 1)
      refine ⟨by omega, by omega, fun j hj hlt => ?_, fun hlt => h4 (by omega)⟩
      rcases Nat.lt_or_ge i j with hij | hij
      · exact h3 j hij hlt
      · have : j = i := by omega
        subst this; assumption
    · exact ⟨le_refl _, by omega, fun j hj hlt => by omega, fun _ => by assumption⟩

end Sys2Proof.Machine
end

