-- ==== Sys2Proof/Laws/PerInstr.lean ====
section
/-! SUPPORT. Statements made instruction by instruction: one lemma per constructor. -/

namespace Sys2Proof.Laws.EncodedLength

/-- An instruction's encoding has the length R90 gives it, at least one byte and at most 8 (R90, R93). -/
def Statement (i : Instr) : Prop := (encode i).length = i.length ∧ 1 ≤ i.length ∧ i.length ≤ 8

theorem lit (data : BitVec 8) : Statement (.lit data) := ⟨rfl, by simp [Instr.length], by simp [Instr.length]⟩
theorem refM (v : BitVec 8) (d : BitVec 12) : Statement (.refM v d) := ⟨rfl, by simp [Instr.length], by simp [Instr.length]⟩
theorem refL (v : BitVec 16) (d : BitVec 12) : Statement (.refL v d) := ⟨rfl, by simp [Instr.length], by simp [Instr.length]⟩
theorem refS (l : BitVec 4) (d : BitVec 12) : Statement (.refS l d) := ⟨rfl, by simp [Instr.length], by simp [Instr.length]⟩
theorem flags (f : BitVec 8) : Statement (.flags f) := ⟨rfl, by simp [Instr.length], by simp [Instr.length]⟩
theorem lzhdr (size : BitVec 24) : Statement (.lzhdr size) := ⟨rfl, by simp [Instr.length], by simp [Instr.length]⟩
theorem lzhdrx (xsize : BitVec 32) : Statement (.lzhdrx xsize) := ⟨rfl, by simp [Instr.length], by simp [Instr.length]⟩
theorem env17 (seed : BitVec 24) : Statement (.env17 seed) := ⟨rfl, by simp [Instr.length], by simp [Instr.length]⟩
theorem env04 (seed : BitVec 24) : Statement (.env04 seed) := ⟨rfl, by simp [Instr.length], by simp [Instr.length]⟩
theorem envUnknown (tag : BitVec 8) (seed : BitVec 24) : Statement (.envUnknown tag seed) := ⟨rfl, by simp [Instr.length], by simp [Instr.length]⟩
theorem nop : Statement .nop := ⟨rfl, by simp [Instr.length], by simp [Instr.length]⟩
theorem lzDec (mode : BitVec 1) : Statement (.lzDec mode) := ⟨rfl, by simp [Instr.length], by simp [Instr.length]⟩
theorem lzEnc (mode : BitVec 1) : Statement (.lzEnc mode) := ⟨rfl, by simp [Instr.length], by simp [Instr.length]⟩
theorem ctDec (mode : BitVec 1) : Statement (.ctDec mode) := ⟨rfl, by simp [Instr.length], by simp [Instr.length]⟩
theorem ctEncRaw : Statement .ctEncRaw := ⟨rfl, by simp [Instr.length], by simp [Instr.length]⟩
theorem ctEncCompressed : Statement .ctEncCompressed := ⟨rfl, by simp [Instr.length], by simp [Instr.length]⟩
theorem reservedOp5 (mode : BitVec 1) : Statement (.reservedOp5 mode) := ⟨rfl, by simp [Instr.length], by simp [Instr.length]⟩
theorem reservedOp6 (mode : BitVec 1) : Statement (.reservedOp6 mode) := ⟨rfl, by simp [Instr.length], by simp [Instr.length]⟩
theorem reservedOp7 (mode : BitVec 1) : Statement (.reservedOp7 mode) := ⟨rfl, by simp [Instr.length], by simp [Instr.length]⟩

end Sys2Proof.Laws.EncodedLength
end

