-- ==== Sys2Proof/Laws/Step.lean ====
section
/-! SUPPORT. What a step can do, said once. -/

namespace Sys2Proof.Machine

/-- What running decoded bytes can do. -/
theorem State.runDecoded_cases {short : ErrorKind} {s : State} {d : Decoded} {o : Host.Outcome State Fault Refusal}
    (h : s.runDecoded short d = o) :
    (∃ i k, d = .ok i k ∧ exec i s = o) ∨ (d = .reject .short ∧ o = .next (s.raise short)) ∨
      (d = .reject .badMagic ∧ o = .next (s.raise .invalidData)) := by
  cases d with
  | ok i k => exact .inl ⟨i, k, rfl, h⟩
  | reject why =>
    cases why with
    | short => exact .inr (.inl ⟨rfl, h.symm⟩)
    | badMagic => exact .inr (.inr ⟨rfl, h.symm⟩)

/-- Every instruction has a next state in every state: the block has no fault and no refusal of an instruction. -/
theorem exec_next (i : Instr) (s : State) : ∃ t, exec i s = .next t := by
  cases i <;> exact ⟨_, rfl⟩

/-- The engine always has a next state. -/
theorem engineStep_next (s : State) : ∃ t, engineStep s = .next t := by
  have hd (short : ErrorKind) (s : State) (d : Decoded) : ∃ t, s.runDecoded short d = .next t := by
    cases d with
    | ok i k => exact exec_next i s
    | reject why => cases why <;> exact ⟨_, rfl⟩
  unfold engineStep
  cases s.phase with
  | idle => exact ⟨_, rfl⟩
  | envelope => exact hd ..
  | decipher => exact ⟨_, rfl⟩
  | header => exact hd ..
  | tokens =>
    show ∃ t, s.tokenStep = _
    unfold State.tokenStep
    split
    · exact ⟨_, rfl⟩
    · split
      · exact hd ..
      · exact hd ..
  | compress => exact ⟨_, rfl⟩
  | pad => exact ⟨_, rfl⟩
  | encipher => exact ⟨_, rfl⟩

/-- What a turn can be: the engine's step, with or without a turn used up, or the host's. -/
theorem step_cases {s : State} {o : Host.Outcome State Fault Refusal} (h : step s = o) :
    (s.turns = [] ∧ engineStep s = o) ∨
      (∃ rest, s.turns = .engine :: rest ∧ engineStep { s with turns := rest } = o) ∨
      (∃ a rest, s.turns = .host a :: rest ∧ hostStep a { s with turns := rest } = o) ∨
      (∃ rest, s.turns = .await :: rest ∧ s.busy = true ∧ engineStep s = o) ∨
      (∃ rest, s.turns = .await :: rest ∧ s.busy = false ∧ o = .next { s with turns := rest }) := by
  unfold step takeTurn at h
  split at h
  · exact .inl ⟨by assumption, h⟩
  · exact .inr (.inl ⟨_, by assumption, h⟩)
  · exact .inr (.inr (.inl ⟨_, _, by assumption, h⟩))
  · rename_i rest hr
    cases hb : s.busy
    · exact .inr (.inr (.inr (.inr ⟨rest, hr, rfl, by simpa [hb] using h.symm⟩)))
    · exact .inr (.inr (.inr (.inl ⟨rest, hr, rfl, by simpa [hb] using h⟩)))

end Sys2Proof.Machine
end

