-- ==== Sys2Proof/Tests/Slice0.lean ====
section
/-! SUPPORT. Tests of this model against the spec's tables and its vectors (95_test_vectors.md, named in each comment), and for
every obligation with hypotheses a concrete case that meets them (`witness_<Name>`). -/

namespace Sys2Proof.Tests

open Sys2Proof Sys2Proof.Machine

/-! ### Helpers -/

/-- The state after a step that has one. -/
def after : Host.Outcome State Fault Refusal → State
  | .next t => t
  | .fault _ => State.reset
  | .refused _ => State.reset

/-- An idle block with `bytes` in `IN` and their number in `IN_LEN`. -/
def loaded (bytes : List Byte) : State :=
  { State.reset with inp := (Memory.empty 0).writeAll 0 bytes, inLen := BitVec.ofNat 32 bytes.length }

/-- A running command on `bytes`, in phase `p`. -/
def running (op : BitVec 3) (p : Phase) (bytes : List Byte) : State :=
  { loaded bytes with op := op, phase := p, status := 1, ilenCmd := BitVec.ofNat 32 bytes.length }

/-- `LZ_DEC` in its main loop, `bytes` being the rest of the stream and `produced` the output so far, with flag byte `flags` and
mask `mask`; the declared size is 20. -/
def decoding (flags mask : Byte) (produced bytes : List Byte) : State :=
  { running opLzDec .tokens bytes with
    ilen := BitVec.ofNat 32 bytes.length, size := 20, flags := flags, mask := mask
    out := (Memory.empty 1).writeAll 0 produced, hist := (Memory.empty 1).writeAll 0 produced
    olen := BitVec.ofNat 32 produced.length, wp := BitVec.ofNat 12 produced.length }

/-- `LZ_ENC` in its main loop on `bytes` at `pos`, after the sub-header. -/
def encoding (bytes : List Byte) (pos : Word) : State :=
  { running opLzEnc .compress bytes with n := BitVec.ofNat 32 bytes.length, pos := pos, wlen := 4 }

/-- A command whose XOR region is `region`, which lies in `WORK` from offset 0 on. -/
def chained (op : BitVec 3) (p : Phase) (region : List Byte) (key : Word) : State :=
  { running op p [] with
    work := (Memory.empty 1).writeAll 0 region, blen := BitVec.ofNat 32 region.length, key := key }

/-- The first `k` bytes of `OUT`. -/
def outBytes (k : Nat) (s : State) : List Byte := (List.range k).map fun i => s.out.read .out i

/-- The first `k` bytes of `WORK`. -/
def workBytes (k : Nat) (s : State) : List Byte := (List.range k).map fun i => s.work.read .work i

/-! ### WellFormed: each check refuses an ill-formed term (R92, R101, R235) -/

theorem test_ill_formed_refS : (Instr.refS 0 0).wellFormed = false ∧ (Instr.refS 1 5).wellFormed = false := by decide
theorem test_ill_formed_lzhdr : (Instr.lzhdr 0).wellFormed = false := by decide
theorem test_ill_formed_envUnknown :
    (Instr.envUnknown 0x17 1).wellFormed = false ∧ (Instr.envUnknown 0x04 1).wellFormed = false := by decide
theorem test_well_formed_boundaries :
    (Instr.refS 2 0xFFF).wellFormed = true ∧ (Instr.lzhdr 1).wellFormed = true ∧ (Instr.lzhdrx 0).wellFormed = true ∧
      (Instr.envUnknown 0x16 0).wellFormed = true := by decide

/-! ### Decode: one word of every row, written out from the tables of 30_encoding.md -/

theorem test_decode_lit : decode (.token false) [0x11] = .ok (.lit 0x11) 1 := by decide
/-- T15: `00 30 02` is `REF_M 20,3`: `v` = 3, `d` = 2. -/
theorem test_decode_refM : decode (.token true) [0x00, 0x30, 0x02] = .ok (.refM 0x03 0x002) 3 := by decide
/-- T19: `10 EE C0 02` is `REF_L 4093,3`: `v` = 4093 - 273 = 0xEEC, `d` = 2. -/
theorem test_decode_refL : decode (.token true) [0x10, 0xEE, 0xC0, 0x02] = .ok (.refL 0x0EEC 0x002) 4 := by decide
/-- T19: `2F FF` is `REF_S 3,4096`. -/
theorem test_decode_refS : decode (.token true) [0x2F, 0xFF] = .ok (.refS 2 0xFFF) 2 := by decide
theorem test_decode_flags : decode .flags [0x40, 0x41] = .ok (.flags 0x40) 1 := by decide
theorem test_decode_lzhdr : decode .header [0x11, 0x12, 0x34, 0x56] = .ok (.lzhdr 0x563412) 4 := by decide
theorem test_decode_lzhdrx :
    decode .header [0x11, 0, 0, 0, 0x12, 0x34, 0x56, 0x78] = .ok (.lzhdrx 0x78563412) 8 := by decide
theorem test_decode_env17 : decode .envelope [0x17, 0x05, 0x06, 0x07] = .ok (.env17 0x070605) 4 := by decide
theorem test_decode_env04 : decode .envelope [0x04, 0x08, 0x00, 0x00] = .ok (.env04 8) 4 := by decide
theorem test_decode_envUnknown : decode .envelope [0x18, 0x05, 0x00, 0x00] = .ok (.envUnknown 0x18 5) 4 := by decide
theorem test_decode_nop : decode .command [0x00, 0x01, 0x00, 0x00] = .ok .nop 4 := by decide
/-- H6: the ignored bits of 0xFFFFFEF9 are all ones. -/
theorem test_decode_lzDec : decode .command [0xF9, 0xFE, 0xFF, 0xFF] = .ok (.lzDec 0) 4 := by decide
theorem test_decode_lzEnc : decode .command [0x02, 0x01, 0x00, 0x00] = .ok (.lzEnc 1) 4 := by decide
theorem test_decode_ctDec : decode .command [0x03, 0x00, 0x00, 0x00] = .ok (.ctDec 0) 4 := by decide
theorem test_decode_ctEncRaw : decode .command [0x04, 0x02, 0x00, 0x00] = .ok .ctEncRaw 4 := by decide
theorem test_decode_ctEncCompressed : decode .command [0x0C, 0x01, 0x00, 0x00] = .ok .ctEncCompressed 4 := by decide
theorem test_decode_reservedOp5 : decode .command [0x05, 0x01, 0x00, 0x00] = .ok (.reservedOp5 1) 4 := by decide
theorem test_decode_reservedOp6 : decode .command [0x06, 0x00, 0x00, 0x00] = .ok (.reservedOp6 0) 4 := by decide
theorem test_decode_reservedOp7 : decode .command [0xFF, 0x00, 0x00, 0x00] = .ok (.reservedOp7 0) 4 := by decide
/-- F3, F2b, F4, CF1: a wrong magic, and the length tests before and after it. -/
theorem test_decode_rejects :
    decode .header [0x10, 0x05, 0x00, 0x00] = .reject .badMagic ∧ decode .header [0x10, 0x05, 0x00] = .reject .short ∧
      decode .header [0x11, 0, 0, 0, 5, 0, 0] = .reject .short ∧ decode .envelope [0x17, 0x05, 0x00] = .reject .short := by
  decide
theorem test_encode_tokens :
    encode (.refM 0x03 0x002) = [0x00, 0x30, 0x02] ∧ encode (.refL 0x0EEC 0x002) = [0x10, 0xEE, 0xC0, 0x02] ∧
      encode (.refS 2 0xFFF) = [0x2F, 0xFF] := by decide

/-! ### Words of the opcode table, fetched by a step -/

theorem test_table_words :
    decodeTableWord 16 0x2FFF = some (.refS 2 0xFFF) ∧ decodeTableWord 24 0x003002 = some (.refM 3 2) ∧
      decodeTableWord 32 0x10EEC002 = some (.refL 0xEEC 2) ∧ decodeTableWord 32 0x104 = some .ctEncCompressed ∧
      decodeTableWord 64 0x0000000500000011 = some (.lzhdrx 5) := by decide
theorem test_fetch_literal : (outBytes 1 (after (step (State.reset.withFetchWord 8 0x41)))) = [0x41] := by decide
theorem test_fetch_command : (after (step (State.reset.withFetchWord 32 0x005))).errcode = 7 := by decide

/-! ### One step of each instruction -/

/-- T1. -/
theorem test_lit :
    (after (exec (.lit 0x42) (decoding 0 0x40 [0x41] [0x42]))).olen = 2 ∧
      outBytes 2 (after (exec (.lit 0x42) (decoding 0 0x40 [0x41] [0x42]))) = [0x41, 0x42] := by decide
/-- T2: `REF_S 3,1`. -/
theorem test_refS_run : outBytes 4 (after (exec (.refS 2 0) (decoding 0x40 0x20 [0x41] [0x20, 0x00]))) =
    [0x41, 0x41, 0x41, 0x41] := by decide
/-- T16: `REF_S 3,3`, the displacement being the whole output. -/
theorem test_refS_whole_output :
    outBytes 6 (after (exec (.refS 2 2) (decoding 0x10 0x08 [0x61, 0x62, 0x63] [0x20, 0x02]))) =
      [0x61, 0x62, 0x63, 0x61, 0x62, 0x63] := by decide
/-- T5: `REF_M 17,1`. -/
theorem test_refM : (after (exec (.refM 0 0) (decoding 0x40 0x20 [0x41] [0x00, 0x00, 0x00]))).olen = 18 := by decide
/-- F8. -/
theorem test_refM_short :
    (after (exec (.refM 0 0) (decoding 0x40 0x20 [0x41] [0x00, 0x00]))).errcode = 3 := by decide
/-- R145, as T12: a `REF_L 273,1` is cut at the declared size, here 20. -/
theorem test_refL_cut :
    (after (exec (.refL 0 0) (decoding 0x40 0x20 [0x41] [0x10, 0x00, 0x00, 0x00]))).olen = 20 := by decide
/-- F10, F14: a displacement beyond the output. -/
theorem test_refS_bad_displacement :
    (after (exec (.refS 15 5) (decoding 0x40 0x20 [0x41] [0xF0, 0x05]))).errcode = 2 ∧
      (after (exec (.refS 15 5) (decoding 0x40 0x20 [0x41] [0xF0, 0x05]))).status = 6 := by decide
theorem test_flags :
    (after (exec (.flags 0x40) (decoding 0 0 [] [0x40]))).flags = 0x40 ∧
      (after (exec (.flags 0x40) (decoding 0 0 [] [0x40]))).mask = 0x80 := by decide
/-- R133: the second token of T2's group is the back-reference, and the mask moves on. -/
theorem test_token_classified :
    (after (step (decoding 0x40 0x40 [0x41] [0x20, 0x00]))).olen = 4 ∧
      (after (step (decoding 0x40 0x40 [0x41] [0x20, 0x00]))).mask = 0x20 := by decide
theorem test_lzhdr : (after (exec (.lzhdr 0x112) { decoding 0 0 [] [0x11, 0x12, 0x01, 0x00] with ip := 3 })).size = 274 ∧
    (after (exec (.lzhdr 0x112) { decoding 0 0 [] [0x11, 0x12, 0x01, 0x00] with ip := 3 })).ip = 4 := by decide
/-- T9. -/
theorem test_lzhdrx :
    (after (step { running opLzDec .header [0x11, 0, 0, 0, 0x12, 0x01, 0, 0] with ilen := 8 })).size = 274 ∧
      (after (step { running opLzDec .header [0x11, 0, 0, 0, 0x12, 0x01, 0, 0] with ilen := 8 })).ip = 8 := by decide
/-- C1, K4: the key of seed 5; the chain starts after the LZ11 sub-header. -/
theorem test_env17 :
    (after (step (running opCtDec .envelope [0x17, 5, 0, 0, 0x11, 5, 0, 0, 0xCF, 0x82, 0x32, 0]))).key = 0x0002828F ∧
      (after (step (running opCtDec .envelope [0x17, 5, 0, 0, 0x11, 5, 0, 0, 0xCF, 0x82, 0x32, 0]))).xp = 4 := by decide
/-- CF4: not `InvalidData`. -/
theorem test_env17_bad_magic :
    (after (step (running opCtDec .envelope [0x17, 5, 0, 0, 0x10, 5, 0, 0]))).errcode = 1 := by decide
/-- C2: the payload lies in `WORK`. -/
theorem test_env04 :
    workBytes 4 (after (step (running opCtDec .envelope [0x04, 4, 0, 0, 0x59, 0x46, 0x47, 0x44]))) =
      [0x59, 0x46, 0x47, 0x44] := by decide
/-- CF6, shortened: the seed is not the number of bytes after the header. -/
theorem test_env04_bad_seed :
    (after (step (running opCtDec .envelope [0x04, 3, 0, 0, 0x59, 0x46, 0x47, 0x44]))).errcode = 1 := by decide
/-- CF12. -/
theorem test_envUnknown : (after (step (running opCtDec .envelope [0, 0, 0, 0]))).errcode = 1 := by decide
/-- H2. -/
theorem test_nop : (after (exec .nop { State.reset with status := 6, errcode := 3 })).errcode = 3 := by decide
theorem test_lzDec : (after (exec (.lzDec 1) (loaded [0x11]))).phase = .header ∧
    (after (exec (.lzDec 1) (loaded [0x11]))).status = 1 := by decide
/-- E1: the sub-header. -/
theorem test_lzEnc : outBytes 4 (after (exec (.lzEnc 0) (loaded [0, 0, 0, 0, 0]))) = [0x11, 0x05, 0x00, 0x00] := by decide
/-- E18. -/
theorem test_lzEnc_too_short : (after (exec (.lzEnc 0) (loaded [0x41]))).errcode = 4 := by decide
theorem test_ctDec : (after (exec (.ctDec 0) (loaded [0x04, 0, 0, 0]))).phase = .envelope := by decide
/-- C6: the body before padding. -/
theorem test_ctEncRaw : workBytes 1 (after (exec .ctEncRaw (loaded [0x41]))) = [0x41] := by decide
/-- S7: `IN_LEN` = 0x1000000. -/
theorem test_ctEncRaw_too_large : (after (exec .ctEncRaw { State.reset with inLen := 0x1000000 })).errcode = 5 := by decide
/-- C1: the sub-header goes to `WORK`. -/
theorem test_ctEncCompressed :
    workBytes 4 (after (exec .ctEncCompressed (loaded [0, 0, 0, 0, 0]))) = [0x11, 0x05, 0x00, 0x00] := by decide
/-- C8. -/
theorem test_ctEncCompressed_too_short : (after (exec .ctEncCompressed (loaded [0x41]))).errcode = 4 := by decide
/-- H3, the `MODE` bit included. -/
theorem test_reservedOp5 : (after (exec (.reservedOp5 1) State.reset)).status = 6 ∧
    (after (exec (.reservedOp5 1) State.reset)).errcode = 7 := by decide
theorem test_reservedOp6 : (after (exec (.reservedOp6 0) State.reset)).errcode = 7 := by decide
theorem test_reservedOp7 : (after (exec (.reservedOp7 0) State.reset)).errcode = 7 := by decide

/-! ### Engine steps without an encoding -/

/-- M4: two candidates of length 3; the nearer wins. -/
theorem test_match_tie :
    (encoding [0x61, 0x62, 0x63, 0x58, 0x61, 0x62, 0x63, 0x59, 0x61, 0x62, 0x63, 0x5A] 8).findMatch = (3, 4) := by decide
/-- M2: a match may overlap `pos`. -/
theorem test_match_overlap : (encoding [0, 0, 0, 0, 0] 1).findMatch = (4, 1) := by decide
/-- E4: `REF 3,1` as the second token of its group. -/
theorem test_token_emitted :
    (after (step { encoding [0x41, 0x41, 0x41, 0x41] 1 with gcount := 1, gbuf := [0x41] })).gbuf = [0x41, 0x20, 0x00] ∧
      (after (step { encoding [0x41, 0x41, 0x41, 0x41] 1 with gcount := 1, gbuf := [0x41] })).gflags = 0x40 := by decide
/-- E2: the final flush. -/
theorem test_final_flush :
    (after (step { encoding [0x41, 0x41] 2 with gcount := 2, gbuf := [0x41, 0x41] })).outLen = 7 := by decide
/-- K10: the product wraps. -/
theorem test_key_wraps : initialKey 0x123456 = 0x237BC802 := by decide
/-- X2, block 0: enciphering carries the enciphered block. -/
theorem test_encipher_block :
    workBytes 4 (after (step (chained opCtEnc .encipher [0x41, 0x42, 0x43, 0x44] 0x40418))) = [0x59, 0x46, 0x47, 0x44] ∧
      (after (step (chained opCtEnc .encipher [0x41, 0x42, 0x43, 0x44] 0x40418))).key = 0x44474659 := by decide
/-- X2, block 0: deciphering restores it and carries the enciphered block too. -/
theorem test_decipher_block :
    workBytes 4 (after (step (chained opCtDec .decipher [0x59, 0x46, 0x47, 0x44] 0x40418))) = [0x41, 0x42, 0x43, 0x44] ∧
      (after (step (chained opCtDec .decipher [0x59, 0x46, 0x47, 0x44] 0x40418))).key = 0x44474659 := by decide
/-- C6: 3 pad bytes, seed 1. -/
theorem test_pad : (after (step (chained opCtEnc .pad [0x41] 0))).blen = 4 ∧
    workBytes 4 (after (step (chained opCtEnc .pad [0x41] 0))) = [0x41, 0, 0, 0] := by decide
/-- C6: the archive. -/
theorem test_archive :
    outBytes 8 (after (step { chained opCtEnc .encipher [0xC2, 0x80, 0, 0] 0 with xp := 4, tag := 4, seed := 1 })) =
      [0x04, 0x01, 0x00, 0x00, 0xC2, 0x80, 0x00, 0x00] := by decide
/-- R39: `CMD` is ignored while busy; H1: registers read 0 after reset. -/
theorem test_host :
    (after (step { running opLzDec .header [] with turns := [.host (.writeReg 0 2)] })).op = opLzDec ∧
      (after (step { State.reset with bus := 9, turns := [.host (.readReg 0x0C)] })).bus = 0 := by decide

/-! ### Witnesses: for each obligation with hypotheses, concrete cases that meet all of them, one for each clause -/

/-- R94 after T2's header: the whole group `40 41 20 00` is due. -/
def t2 : State := decoding 0 0 [] [0x40, 0x41, 0x20, 0x00]

/-- One byte produced, `HIST` a view of it. -/
theorem history_view_one (flags mask b : Byte) (bytes : List Byte) : (decoding flags mask [b] bytes).HistoryView := by
  refine ⟨rfl, fun k hk _ => ?_⟩
  have hk : k < 1 := hk
  obtain rfl : k = 0 := by omega
  rfl

theorem witness_DecodeOfEncodeIsIdentity :
    (Instr.refS 2 0).wellFormed = true ∧ (Instr.refS 15 0xFFF).wellFormed = true ∧ (Instr.lzhdr 1).wellFormed = true ∧
      (Instr.refM 0 0).wellFormed = true ∧ (Instr.refL 0xFFFF 0xFFF).wellFormed = true ∧
      (Instr.envUnknown 0x05 0).wellFormed = true := by decide

theorem witness_EncodeOfDecodeIsIdentity :
    decode (.token true) [0x2F, 0xFF, 0x00] = .ok (.refS 2 0xFFF) 2 ∧ DecodeContext.token true ≠ .command ∧
      decode .header [0x11, 0, 0, 0, 0, 0, 0, 0] = .ok (.lzhdrx 0) 8 ∧ DecodeContext.header ≠ .command ∧
      decode .envelope [0x16, 0, 0, 0] = .ok (.envUnknown 0x16 0) 4 ∧ DecodeContext.envelope ≠ .command := by decide

theorem witness_FirstByteSelectsForm :
    (0x0F : Byte).toNat ≤ 0x0F ∧ 0x10 ≤ (0x10 : Byte).toNat ∧ (0x10 : Byte).toNat ≤ 0x1F ∧ 0x10 ≤ (0x1F : Byte).toNat ∧
      (0x1F : Byte).toNat ≤ 0x1F ∧ 0x20 ≤ (0x20 : Byte).toNat := by decide

theorem witness_OperandFormulas :
    decode (.token true) [0x20, 0x00, 0, 0] = .ok (.refS 2 0) 2 ∧
      decode (.token true) [0x0F, 0xFF, 0xFF, 0] = .ok (.refM 0xFF 0xFFF) 3 ∧
      decode (.token true) [0x1F, 0xFF, 0xF0, 0x00] = .ok (.refL 0xFFFF 0) 4 := by decide

theorem witness_LengthClassChoosesForm :
    let ok := fun (len : BitVec 17) (disp : BitVec 13) =>
      decide (3 ≤ len.toNat ∧ len.toNat ≤ 65808 ∧ 1 ≤ disp.toNat ∧ disp.toNat ≤ 4096)
    ok 3 1 = true ∧ ok 0x10 4096 = true ∧ ok 0x11 1 = true ∧ ok 0x110 4096 = true ∧ ok 0x111 1 = true ∧
      ok 65808 4096 = true := by decide

theorem witness_StepRunsFetchedRecord :
    (t2.turns = [] ∧ t2.phase = .tokens ∧ t2.olen.toNat < t2.size.toNat ∧ t2.mask = 0 ∧
      decode .flags t2.streamWindow = .ok (.flags 0x40) 1) ∧
    (let s := decoding 0x40 0x40 [0x41] [0x20, 0x00]
     s.turns = [] ∧ s.phase = .tokens ∧ s.olen.toNat < s.size.toNat ∧ s.mask ≠ 0 ∧
      decode (.token (decide (s.flags &&& s.mask ≠ 0))) s.streamWindow = .ok (.refS 2 0) 2) ∧
    (let s := { running opLzDec .header [0x11, 5, 0, 0] with ilen := 4 }
     s.turns = [] ∧ s.phase = .header ∧ decode .header s.decoderInit.streamWindow = .ok (.lzhdr 5) 4) ∧
    (let s := running opCtDec .envelope [4, 0, 0, 0]
     s.turns = [] ∧ s.phase = .envelope ∧ decode .envelope s.archiveWindow = .ok (.env04 0) 4) := by decide

theorem witness_StepRunsCommandWrite :
    (let s := { loaded [] with turns := [.host (.writeReg 0 5)] }
     s.turns = [.host (.writeReg 0x00 5)] ∧ s.busy = false) ∧
    (let s := { t2 with turns := [.host (.writeReg 0 5)] }
     s.turns = [.host (.writeReg 0x00 5)] ∧ s.busy = true) := by decide

theorem witness_FlagByteStartsGroup : 1 ≤ (decoding 0 0 [] [0x40]).avail := by decide

theorem witness_LiteralAppendsOneByte : 1 ≤ (decoding 0 0x80 [] [0x41]).avail := by decide

theorem witness_BackReferenceRuns :
    (displacement 0).toNat ≤ (decoding 0x40 0x20 [0x41] [0x20, 0x00]).olen.toNat ∧
      2 ≤ (decoding 0x40 0x20 [0x41] [0x20, 0x00]).avail ∧
      (displacement 0).toNat ≤ (decoding 0x40 0x20 [0x41] [0, 0, 0]).olen.toNat ∧
      3 ≤ (decoding 0x40 0x20 [0x41] [0, 0, 0]).avail ∧
      (displacement 0).toNat ≤ (decoding 0x40 0x20 [0x41] [0x10, 0, 0, 0]).olen.toNat ∧
      4 ≤ (decoding 0x40 0x20 [0x41] [0x10, 0, 0, 0]).avail := by decide

theorem witness_BackReferenceRepeatsPattern :
    (let s := decoding 0x40 0x20 [0x41] [0x20, 0x00]
     2 ≤ s.avail ∧ 1 ≤ (1 : BitVec 13).toNat ∧ (1 : BitVec 13).toNat ≤ 4096 ∧ (1 : BitVec 13).toNat ≤ s.olen.toNat ∧
      s.olen.toNat ≤ s.size.toNat) ∧ (decoding 0x40 0x20 [0x41] [0x20, 0x00]).HistoryView :=
  ⟨by decide, history_view_one ..⟩

theorem witness_MissingTokenBytesRaise :
    (Instr.flags 0).context = .flags ∧ (decoding 0 0 [] []).avail < (Instr.flags 0).length ∧
      (Instr.lit 0).context = .token false ∧ (decoding 0 0 [] []).avail < (Instr.lit 0).length ∧
      (Instr.refS 2 0).context = .token true ∧ (decoding 0 0 [] [0x20]).avail < (Instr.refS 2 0).length ∧
      (decoding 0 0 [] [0, 0]).avail < (Instr.refM 0 0).length ∧
      (decoding 0 0 [] [0x10, 0, 0]).avail < (Instr.refL 0 0).length := by decide

theorem witness_StreamEndsInsideTokens :
    let met := fun s : State => decide (s.turns = [] ∧ s.phase = .tokens ∧ s.olen.toNat < s.size.toNat)
    let cut := fun s : State => decide (1 ≤ s.avail ∧ s.mask ≠ 0 ∧ s.flags &&& s.mask ≠ 0)
    (let s := decoding 0 0 [] []; met s = true ∧ s.avail = 0) ∧
    (let s := decoding 0xFF 0x80 [] [0x0F, 0x00]
     met s = true ∧ cut s = true ∧ (s.streamByte s.ip.toNat).toNat / 16 = 0 ∧ s.avail < 3) ∧
    (let s := decoding 0xFF 0x80 [] [0x1F, 0x00, 0x00]
     met s = true ∧ cut s = true ∧ (s.streamByte s.ip.toNat).toNat / 16 = 1 ∧ s.avail < 4) ∧
    (let s := decoding 0xFF 0x80 [] [0x20]
     met s = true ∧ cut s = true ∧ (s.streamByte s.ip.toNat).toNat / 16 = 2 ∧ s.avail < 2) := by decide

theorem witness_DisplacementBeyondOutputRaises :
    (decoding 0xFF 0x40 [] [0x20, 0x00]).olen.toNat < (displacement 0).toNat ∧
      2 ≤ (decoding 0xFF 0x40 [] [0x20, 0x00]).avail ∧
      (decoding 0xFF 0x40 [0x41] [0, 0, 1]).olen.toNat < (displacement 1).toNat ∧
      3 ≤ (decoding 0xFF 0x40 [0x41] [0, 0, 1]).avail ∧
      (decoding 0xFF 0x40 [0x41] [0x10, 0, 0xF, 0xFF]).olen.toNat < (displacement 0xFFF).toNat ∧
      4 ≤ (decoding 0xFF 0x40 [0x41] [0x10, 0, 0xF, 0xFF]).avail := by decide

theorem witness_HeaderDeclaresSize :
    4 ≤ (decoding 0 0 [] [0x11, 5, 0, 0]).ilen.toNat ∧ 8 ≤ (decoding 0 0 [] [0x11, 0, 0, 0, 5, 0, 0, 0]).ilen.toNat := by
  decide

theorem witness_HeaderErrorsInOrder :
    let due := fun bytes : List Byte => { running opLzDec .header bytes with ilen := BitVec.ofNat 32 bytes.length }
    ((due [0x10, 5, 0]).turns = [] ∧ (due [0x10, 5, 0]).phase = .header ∧ (due [0x10, 5, 0]).ilen.toNat < 4) ∧
    (4 ≤ (due [0x10, 5, 0, 0]).ilen.toNat ∧ (due [0x10, 5, 0, 0]).streamByte 0 ≠ 0x11) ∧
    (let s := due [0x11, 0, 0, 0, 5, 0, 0]
     4 ≤ s.ilen.toNat ∧ s.ilen.toNat < 8 ∧ s.streamByte 0 = 0x11 ∧ s.streamByte 1 = 0 ∧ s.streamByte 2 = 0 ∧
      s.streamByte 3 = 0) ∧
    (let s := due [0x11, 0, 0, 0]
     4 ≤ s.ilen.toNat ∧ s.ilen.toNat < 8 ∧ s.streamByte 0 = 0x11 ∧ s.streamByte 1 = 0 ∧ s.streamByte 2 = 0 ∧
      s.streamByte 3 = 0) := by decide

theorem witness_DecodingEndsAtDeclaredSize :
    let s := { decoding 0 0 [0x41] [0xFF] with size := 1 }
    s.turns = [] ∧ s.phase = .tokens ∧ s.olen = s.size := by decide

theorem witness_CompressedArchiveOpens :
    let s := running opCtDec .envelope [0x17, 5, 0, 0, 0x11, 5, 0, 0]
    5 ≤ s.ilenCmd.toNat ∧ (s.ilenCmd.toNat - 4) % 4 = 0 ∧ s.inp.read .inp 4 = 0x11 := by decide

theorem witness_RawArchiveOpens :
    (let s := running opCtDec .envelope [0x04, 0, 0, 0]
     4 ≤ s.ilenCmd.toNat ∧ (s.ilenCmd.toNat - 4) % 4 = 0 ∧ (0 : BitVec 24).toNat = s.ilenCmd.toNat - 4) ∧
    (let s := running opCtDec .envelope [0x04, 4, 0, 0, 1, 2, 3, 4]
     4 ≤ s.ilenCmd.toNat ∧ (s.ilenCmd.toNat - 4) % 4 = 0 ∧ (4 : BitVec 24).toNat = s.ilenCmd.toNat - 4) := by decide

theorem witness_UnknownTagRaisesInvalidArchive :
    (0x18 : Byte) ≠ 0x17 ∧ (0x18 : Byte) ≠ 0x04 ∧ (0x05 : Byte) ≠ 0x17 ∧ (0x05 : Byte) ≠ 0x04 := by decide

/-- CF1, CF12, CF2, CF4, CF5 and CF6 shortened, each invalid for its own reason; C3's archive is valid. -/
theorem witness_InvalidArchiveExactlyWhen :
    let due := fun bytes : List Byte => running opCtDec .envelope bytes
    (due [0x17, 5, 0]).ArchiveInvalid ∧ (due [0, 0, 0, 0]).ArchiveInvalid ∧ (due [0x17, 5, 0, 0]).ArchiveInvalid ∧
      (due [0x17, 5, 0, 0, 0x10, 5, 0, 0]).ArchiveInvalid ∧ (due [0x17, 5, 0, 0, 0x11, 5, 0]).ArchiveInvalid ∧
      (due [0x04, 1, 0, 0, 1, 2, 3, 4]).ArchiveInvalid ∧ ¬ (due [0x04, 0, 0, 0]).ArchiveInvalid ∧
      ¬ (due [0x17, 5, 0, 0, 0x11, 5, 0, 0]).ArchiveInvalid ∧
      (due [0x04, 0, 0, 0]).turns = [] ∧ (due [0x04, 0, 0, 0]).phase = .envelope ∧
      t2.phase ≠ .envelope ∧ t2.errcode ≠ 1 ∧ engineStep t2 = .next (after (engineStep t2)) := by
  refine ⟨?_, ?_, ?_, ?_, ?_, ?_, ?_, ?_, rfl, rfl, by decide, by decide, rfl⟩ <;> unfold State.ArchiveInvalid <;> decide

theorem witness_DecipheredArchiveIsHandedOver :
    let s := fun tag : Byte => { chained opCtDec .decipher [0x11, 5, 0, 0] 0 with xp := 4, tag := tag }
    ((s 0x17).turns = [] ∧ (s 0x17).phase = .decipher ∧ (s 0x17).blen.toNat ≤ (s 0x17).xp.toNat ∧ (s 0x17).tag = 0x17) ∧
    ((s 0x04).turns = [] ∧ (s 0x04).phase = .decipher ∧ (s 0x04).blen.toNat ≤ (s 0x04).xp.toNat ∧ (s 0x04).tag ≠ 0x17) := by
  decide

theorem witness_NopChangesNothing : (0xFFFFFFF8 : Word).extractLsb' 0 3 = 0 := by decide

theorem witness_DecodeCommandsStart : (loaded [0x11]).busy = false := by decide

theorem witness_CompressionStarts :
    (loaded [1, 2]).busy = false ∧ 2 ≤ (loaded [1, 2]).inLen.toNat ∧ (loaded [1, 2]).inLen.toNat ≤ 0xFFFFFF ∧
      2 ≤ ({ State.reset with inLen := 0xFFFFFF } : State).inLen.toNat ∧
      ({ State.reset with inLen := 0xFFFFFF } : State).inLen.toNat ≤ 0xFFFFFF := by decide

theorem witness_RawEncodingStarts :
    (loaded []).busy = false ∧ (loaded []).inLen.toNat ≤ 0xFFFFFF ∧
      ({ State.reset with inLen := 0xFFFFFF } : State).inLen.toNat ≤ 0xFFFFFF := by decide

theorem witness_InputLengthOutOfRangeRaises :
    (loaded [1]).busy = false ∧ (loaded [1]).inLen.toNat < 2 ∧
      ({ State.reset with inLen := 0x1000000 } : State).busy = false ∧
      0xFFFFFF < ({ State.reset with inLen := 0x1000000 } : State).inLen.toNat := by decide

theorem witness_ReservedOpRaisesBadCommand :
    State.reset.busy = false ∧ 5 ≤ ((0xFFFFFFFD : Word).extractLsb' 0 3).toNat ∧
      5 ≤ ((0x107 : Word).extractLsb' 0 3).toNat := by decide

theorem witness_BusyBlockIgnoresCommands : (Instr.lzEnc 0).context = .command ∧ t2.busy = true := by decide

/-- T1's stream. -/
def t1 : List Byte := [0x11, 3, 0, 0, 0, 0x41, 0x42, 0x43]

/-- `LZ_DEC` of T1's stream, from reset and from a block that another command has used. -/
theorem witness_CommandsArePureFunctions :
    let s := loaded t1
    let s' := { loaded (t1 ++ [0xFF]) with
      inLen := 8, op := 5, status := 6, errcode := 7, out := (Memory.empty 3).write 1 9, hist := (Memory.empty 3).write 0 9 }
    let u := after (exec (.lzDec 0) s)
    (Instr.lzDec 0).context = .command ∧ Instr.lzDec 0 ≠ .nop ∧ s.busy = false ∧ s'.busy = false ∧ s'.inLen = s.inLen ∧
      (∀ a, a < s.inLen.toNat → s'.inp.read .inp a = s.inp.read .inp a) ∧ exec (.lzDec 0) s = .next u ∧
      exec (.lzDec 0) s' = .next (after (exec (.lzDec 0) s')) ∧ RunsTo u (engineRun 6 u) := by
  refine ⟨rfl, by decide, rfl, rfl, rfl, by decide, rfl, rfl, by decide, 6, rfl⟩

theorem witness_RegistersReadAsMapped :
    ∀ offset ∈ [0x00, 0x04, 0x08, 0x0C, 0x10],
      ({ loaded [1] with turns := [.host (.readReg offset)] } : State).turns = [.host (.readReg offset)] := by decide

theorem witness_HostAccessesInputAndOutput :
    (let s := { loaded [1] with turns := [.host (.writeIn 0 7)] }
     s.turns = [.host (.writeIn 0 7)] ∧ s.busy = false) ∧
    (let s := { t2 with turns := [.host (.writeIn 0 7)] }
     s.turns = [.host (.writeIn 0 7)] ∧ s.busy = true) ∧
    (let s := { loaded [1] with turns := [.host (.writeReg 0x04 7)] }
     s.turns = [.host (.writeReg 0x04 7)] ∧ s.busy = false) ∧
    (let s := { t2 with turns := [.host (.writeReg 0x04 7)] }
     s.turns = [.host (.writeReg 0x04 7)] ∧ s.busy = true) ∧
    (let s := { loaded [1] with turns := [.host (.readOut 0)] }
     s.turns = [.host (.readOut 0)] ∧ s.busy = false) ∧
    (let s := { t2 with turns := [.host (.readOut 0)] }
     s.turns = [.host (.readOut 0)] ∧ s.busy = true) := by decide

/-- The first offset past the map, and one inside a register. -/
theorem witness_OnlyUndefinedRegistersAreRefused :
    ∀ offset ∈ [0x14, 0x02], offset ∉ [0x00, 0x04, 0x08, 0x0C, 0x10] ∧
      ({ loaded [1] with turns := [.host (.readReg offset)] } : State).turns = [.host (.readReg offset)] ∧
      ({ t2 with turns := [.host (.writeReg offset 1)] } : State).turns = [.host (.writeReg offset 1)] := by decide

theorem witness_HardwareResetGivesIdleBlock :
    ({ t2 with turns := [.host .reset] } : State).turns = [.host .reset] := by decide

theorem witness_IdleBlockDoesNothing :
    State.reset.phase = .idle ∧ State.reset.turns = [] ∧
      ({ State.reset with turns := [.engine] } : State).turns = [.engine] := by decide

theorem witness_EngineNeverWritesInput : engineStep t2 = .next (after (engineStep t2)) := rfl

theorem witness_DoneStaysUntilNextCommand :
    let s := { State.reset with status := 6, errcode := 4, turns := [.host (.writeReg 0x04 1)] }
    s.StatusLegal ∧ s.done = true ∧ step s = .next (after (step s)) :=
  ⟨.inr (.inr (.inr ⟨rfl, rfl, rfl, by decide⟩)), rfl, rfl⟩

theorem witness_DetectorFindsLongestNearestMatch :
    (encoding [0, 0, 0, 0, 0] 1).pos.toNat < (encoding [0, 0, 0, 0, 0] 1).n.toNat ∧
      (encoding [0, 0, 0, 0, 0] 1).detect.mlen.toNat = 4 ∧
      (encoding [0, 0, 0, 0, 0] 0).pos.toNat < (encoding [0, 0, 0, 0, 0] 0).n.toNat ∧
      (encoding [0, 0, 0, 0, 0] 0).detect.mlen.toNat = 0 := by decide

/-- A literal at `pos` 0 and a back-reference at `pos` 1, as the seventh token of the group and as its eighth. -/
theorem witness_TokenIsChosenAndBuffered :
    let s := fun (gcount : BitVec 4) (pos : Word) => { encoding [0, 0, 0, 0, 0] pos with gcount := gcount }
    ∀ gcount ∈ [(6 : BitVec 4), 7], ∀ pos ∈ [(0 : Word), 1],
      (s gcount pos).turns = [] ∧ (s gcount pos).phase = .compress ∧
      (s gcount pos).pos.toNat < (s gcount pos).n.toNat ∧ (s gcount pos).gcount.toNat < 8 ∧
      (s gcount pos).wlen.toNat + (s gcount pos).gbuf.length + 5 < 2 ^ 32 ∧
      (3 ≤ (s gcount pos).detect.mlen.toNat ↔ pos = 1) := by
  intro s gcount hg pos hp
  simp only [List.mem_cons, List.not_mem_nil, or_false] at hg hp
  rcases hg with rfl | rfl <;> rcases hp with rfl | rfl <;> refine ⟨rfl, rfl, ?_, ?_, ?_, ?_⟩ <;> decide

theorem witness_EighthTokenFlushesGroup :
    let s := { encoding [1, 2] 1 with gcount := 7, gbuf := [1, 2, 3, 4, 5, 6, 7] }
    s.gcount = 7 ∧ s.wlen.toNat + 1 + s.gbuf.length + [(8 : Byte)].length < 2 ^ 32 := by decide

theorem witness_FinalFlushEndsCompression :
    let met := fun s : State => decide (s.turns = [] ∧ s.phase = .compress ∧ s.n.toNat ≤ s.pos.toNat ∧
      s.wlen.toNat + 1 + s.gbuf.length < 2 ^ 32)
    (let s := { encoding [1, 2] 2 with gcount := 2, gbuf := [1, 2] }; met s = true ∧ s.op = 2 ∧ s.gcount ≠ 0) ∧
    (let s := { encoding [1, 2] 2 with op := opCtEnc }; met s = true ∧ s.op ≠ 2 ∧ s.gcount = 0) := by decide

theorem witness_ChainBlockTransformsFourBytes :
    ∀ p ∈ [Phase.decipher, Phase.encipher],
      (chained opCtDec p [1, 2, 3, 4] 9).turns = [] ∧ (chained opCtDec p [1, 2, 3, 4] 9).phase = p ∧
      (chained opCtDec p [1, 2, 3, 4] 9).xp.toNat < (chained opCtDec p [1, 2, 3, 4] 9).blen.toNat := by decide

theorem witness_DecipheringNeedsNoRunningKey :
    (chained opCtDec .decipher [1, 2, 3, 4, 5, 6, 7, 8] 9).xp.toNat + 4 * 2 < 2 ^ 32 := by decide

theorem witness_ChainsAreInverse :
    let s := chained opCtEnc .encipher [1, 2, 3, 4, 5, 6, 7, 8] 9
    let t := { s with work := (State.encipherBlock^[2] s).work }
    let t' := { s with work := (State.decipherBlock^[2] s).work }
    s.xp.toNat + 4 * 2 < 2 ^ 32 ∧ t.xp = s.xp ∧ t.key = s.key ∧ t'.xp = s.xp ∧ t'.key = s.key ∧
      (∀ a, t.work.read .work a = (State.encipherBlock^[2] s).work.read .work a) ∧
      (∀ a, t'.work.read .work a = (State.decipherBlock^[2] s).work.read .work a) :=
  ⟨by decide, rfl, rfl, rfl, rfl, fun _ => rfl, fun _ => rfl⟩

theorem witness_BodyIsPaddedAndKeyed :
    let s := fun mode : BitVec 1 => { chained opCtEnc .pad [1, 2, 3, 4, 5] 0 with mode := mode, ilenCmd := 5 }
    (s 0).turns = [] ∧ (s 0).phase = .pad ∧ (s 0).blen.toNat < 2 ^ 25 ∧ (s 0).ilenCmd.toNat ≤ 0xFFFFFF ∧ (s 0).mode = 0 ∧
      (s 1).turns = [] ∧ (s 1).phase = .pad ∧ (s 1).blen.toNat < 2 ^ 25 ∧ (s 1).ilenCmd.toNat ≤ 0xFFFFFF ∧
      (s 1).mode = 1 := by decide

theorem witness_ArchiveIsHeaderAndBody :
    let s := fun tag : Byte => { chained opCtEnc .encipher [1, 2, 3, 4] 0 with tag := tag, xp := 4 }
    (s 0x17).turns = [] ∧ (s 0x17).phase = .encipher ∧ (s 0x17).blen.toNat ≤ (s 0x17).xp.toNat ∧
      (s 0x17).blen.toNat < 2 ^ 32 - 4 ∧ (s 0x17).tag = 0x17 ∧ (s 0x04).phase = .encipher ∧ (s 0x04).tag = 0x04 := by
  decide

theorem status_legal_running (op : BitVec 3) (p : Phase) (bytes : List Byte) (h : p ≠ .idle) :
    (running op p bytes).StatusLegal := .inl ⟨h, rfl, rfl, rfl⟩

theorem witness_StepKeepsStatusLegal : t2.StatusLegal ∧ step t2 = .next (after (step t2)) :=
  ⟨.inl ⟨by decide, rfl, rfl, rfl⟩, rfl⟩

theorem witness_StepKeepsMemoryLegal :
    (decoding 0 0x40 [0x41] [0x42]).MemoryLegal ∧
      step (decoding 0 0x40 [0x41] [0x42]) = .next (after (step (decoding 0 0x40 [0x41] [0x42]))) :=
  ⟨⟨by decide, by decide, by decide, by decide, by decide⟩, rfl⟩

theorem witness_StepKeepsErrorLegal : t2.ErrorLegal ∧ step t2 = .next (after (step t2)) :=
  ⟨⟨.inl rfl, by decide⟩, rfl⟩

theorem decoder_legal_one : (decoding 0x40 0x40 [0x41] [0x20, 0x00]).DecoderLegal :=
  fun _ => ⟨by decide, by decide, by decide, .inr ⟨6, by decide⟩, (history_view_one ..).2⟩

theorem witness_StepKeepsDecoderLegal :
    (decoding 0x40 0x40 [0x41] [0x20, 0x00]).DecoderLegal ∧ step (decoding 0x40 0x40 [0x41] [0x20, 0x00]) =
      .next (after (step (decoding 0x40 0x40 [0x41] [0x20, 0x00]))) := ⟨decoder_legal_one, rfl⟩

/-- The full group boundary: 7 literals are buffered and the 8th token is next. -/
theorem witness_StepKeepsEncoderAndChainLegal :
    let s := { encoding [1, 2, 3, 4, 5, 6, 7, 8] 7 with gcount := 7, gbuf := [1, 2, 3, 4, 5, 6, 7] }
    let c := chained opCtEnc .encipher [1, 2, 3, 4] 0
    s.EncoderLegal ∧ s.ChainLegal ∧ s.phase = .compress ∧ step s = .next (after (step s)) ∧
      c.EncoderLegal ∧ c.ChainLegal ∧ c.phase = .encipher ∧ step c = .next (after (step c)) := by
  refine ⟨fun _ => by decide, ⟨?_, ?_⟩, rfl, rfl, ?_, ⟨fun _ => by decide, ?_⟩, rfl, rfl⟩
  · rintro (h | h) <;> cases h
  · intro h; cases h
  · intro h; cases h
  · intro h; cases h

theorem witness_EveryCommandEnds :
    let s := decoding 0x40 0x40 [0x41] [0x20, 0x00]
    s.StatusLegal ∧ s.DecoderLegal ∧ s.EncoderLegal ∧ s.ChainLegal ∧ s.phase ≠ .idle := by
  refine ⟨.inl ⟨by decide, rfl, rfl, rfl⟩, decoder_legal_one, ?_, ⟨?_, ?_⟩, by decide⟩
  · intro h; cases h
  · rintro (h | h) <;> cases h
  · intro h; cases h

/-- E2: the shortest input, its whole run, and its result. -/
def e2 : State := after (exec (.lzEnc 0) (loaded [0x41, 0x41]))

theorem witness_CompressedSizeIsBounded :
    let s := loaded [0x41, 0x41]
    s.busy = false ∧ 2 ≤ s.inLen.toNat ∧ s.inLen.toNat ≤ 0xFFFFFF ∧ exec (.lzEnc 0) s = .next e2 ∧
      RunsTo e2 (engineRun 3 e2) := ⟨rfl, by decide, by decide, rfl, by decide, 3, rfl⟩

/-- The inner hypotheses too: a block loaded with E2's stream. -/
theorem witness_DecompressionInvertsCompression :
    let s := loaded [0x41, 0x41]
    let t := engineRun 3 e2
    let s' := loaded [0x11, 2, 0, 0, 0, 0x41, 0x41]
    s.busy = false ∧ 2 ≤ s.inLen.toNat ∧ s.inLen.toNat ≤ 0xFFFFFF ∧ s'.busy = false ∧ s'.inLen = t.outLen ∧
      ∀ a, a < t.outLen.toNat → s'.inp.read .inp a = t.out.read .out a :=
  ⟨rfl, by decide, by decide, rfl, by decide, by decide⟩

/-- C7: the inner hypotheses too. -/
theorem witness_CompressedArchiveRoundTrips :
    let s := loaded [0x41, 0x41]
    let t := engineRun 6 (after (exec .ctEncCompressed s))
    let s' := loaded [0x17, 2, 0, 0, 0x11, 2, 0, 0, 0x06, 0x40, 0x40, 0]
    s.busy = false ∧ 2 ≤ s.inLen.toNat ∧ s.inLen.toNat ≤ 0xFFFFFF ∧ s'.busy = false ∧ s'.inLen = t.outLen ∧
      ∀ a, a < t.outLen.toNat → s'.inp.read .inp a = t.out.read .out a :=
  ⟨rfl, by decide, by decide, rfl, by decide, by decide⟩

/-- C6 (1 byte, not a whole block) and the first block of X2 (a whole block). -/
theorem witness_RawArchiveRoundTripsForWholeBlocks :
    (let s := loaded [0x41]
     let t := engineRun 3 (after (exec .ctEncRaw s))
     let s' := loaded [0x04, 1, 0, 0, 0xC2, 0x80, 0, 0]
     s.busy = false ∧ s.inLen.toNat ≤ 0xFFFFFF ∧ s.inLen.toNat % 4 ≠ 0 ∧ s'.busy = false ∧ s'.inLen = t.outLen ∧
      ∀ a, a < t.outLen.toNat → s'.inp.read .inp a = t.out.read .out a) ∧
    (let s := loaded [0, 0, 0, 0]
     let t := engineRun 3 (after (exec .ctEncRaw s))
     let s' := loaded [0x04, 4, 0, 0, 0x0C, 0x02, 0x02, 0]
     s.busy = false ∧ s.inLen.toNat ≤ 0xFFFFFF ∧ s.inLen.toNat % 4 = 0 ∧ s'.busy = false ∧ s'.inLen = t.outLen ∧
      ∀ a, a < t.outLen.toNat → s'.inp.read .inp a = t.out.read .out a) :=
  ⟨⟨rfl, by decide, by decide, rfl, by decide, by decide⟩, ⟨rfl, by decide, by decide, rfl, by decide, by decide⟩⟩

end Sys2Proof.Tests
end

section
/-! SUPPORT. Inversion of the step: each way in which a write to `CMD`, a move of the engine or a move of the host can change the
state, with the guards under which it happens. Invariants are proved by cases on these and never unfold `engineStep` or `exec`. -/

namespace Sys2Proof.Machine

/-! ### What decoded bytes can be -/

/-- Bytes decode to instructions of the context they are read in. -/
theorem context_of_decode {c : DecodeContext} {bytes : List Byte} {i : Instr} {k : Nat} (h : decode c bytes = .ok i k) :
    i.context = c := by
  have hcommand (w : Word) : (decodeCommand w).context = .command := by
    simp only [decodeCommand]
    repeat' split
    all_goals rfl
  have henvelope (tag : Byte) (seed : BitVec 24) : (decodeEnvelope tag seed).context = .envelope := by
    unfold decodeEnvelope
    repeat' split
    all_goals rfl
  unfold decode at h
  split at h
  case h_1 => cases h; exact hcommand _
  case h_3 => cases h; exact henvelope _ _
  case h_5 =>
    unfold decodeHeader at h
    repeat' split at h
    all_goals cases h <;> rfl
  case h_10 =>
    unfold decodeRef at h
    repeat' split at h
    all_goals cases h <;> rfl
  all_goals cases h <;> rfl

theorem decodeCommand_context (w : Word) : (decodeCommand w).context = .command :=
  context_of_decode (bytes := bytesLE32 w) (k := 4) (by simp [bytesLE32, decode])

theorem Instr.of_envelope_context {i : Instr} (h : i.context = .envelope) :
    (∃ seed, i = .env17 seed) ∨ (∃ seed, i = .env04 seed) ∨ ∃ tag seed, i = .envUnknown tag seed := by
  cases i <;> simp [Instr.context] at h ⊢

theorem Instr.of_header_context {i : Instr} (h : i.context = .header) :
    (∃ size, i = .lzhdr size) ∨ ∃ size, i = .lzhdrx size := by
  cases i <;> simp [Instr.context] at h ⊢

theorem Instr.of_flags_context {i : Instr} (h : i.context = .flags) : ∃ f, i = .flags f := by
  cases i <;> simp [Instr.context] at h ⊢

theorem Instr.of_token_context {i : Instr} {isRef : Bool} (h : i.context = .token isRef) :
    (∃ b, i = .lit b) ∨ (∃ l d, i = .refS l d) ∨ (∃ v d, i = .refM v d) ∨ ∃ v d, i = .refL v d := by
  cases i <;> simp [Instr.context] at h ⊢

/-! ### Frames of the encoder's operations -/

theorem State.account_frame (token : List Byte) (isRef : Bool) (s : State) :
    { s.account token isRef with
      out := s.out, work := s.work, wlen := s.wlen, gflags := s.gflags, gcount := s.gcount, gbuf := s.gbuf } = s := by
  rcases s.account_cases token isRef with ⟨-, e⟩ | ⟨-, e⟩
  · rw [e]
  · have h := State.flush_frame { s with
      gflags := groupFlags s.gflags s.gcount isRef, gbuf := s.gbuf ++ token, gcount := s.gcount + 1 }
    rw [e]
    rw [State.mk.injEq] at h ⊢
    simp_all

theorem State.emitToken_frame (s : State) :
    { s.emitToken with
      out := s.out, work := s.work, wlen := s.wlen, gflags := s.gflags, gcount := s.gcount, gbuf := s.gbuf
      pos := s.pos } = s := by
  unfold State.emitToken
  split
  · have h := State.account_frame (encode (.lit (s.inp.read .inp s.pos.toNat))) false { s with pos := s.pos + 1 }
    rw [State.mk.injEq] at h ⊢
    simp_all
  · have h := State.account_frame (encode (refToken s.mlen s.mdisp)) true { s with pos := s.pos + s.mlen.setWidth 32 }
    rw [State.mk.injEq] at h ⊢
    simp_all

/-- A turn of the compression loop changes nothing but the stream, the group, `pos` and the detector's registers. -/
theorem State.detect_emitToken_frame (s : State) :
    { s.detect.emitToken with
      out := s.out, work := s.work, wlen := s.wlen, gflags := s.gflags, gcount := s.gcount, gbuf := s.gbuf
      pos := s.pos, mlen := s.mlen, mdisp := s.mdisp, free := s.free } = s := by
  have h1 := s.detect.emitToken_frame
  have h2 := s.detect_frame
  rw [State.mk.injEq] at h1 h2 ⊢
  simp_all

@[simp] theorem State.emit_phase (bytes : List Byte) (s : State) : (s.emit bytes).phase = s.phase :=
  (congrArg State.phase (s.emit_frame bytes) :)

@[simp] theorem State.detect_emitToken_phase (s : State) : s.detect.emitToken.phase = s.phase :=
  (congrArg State.phase s.detect_emitToken_frame :)

/-- The state after the final flush (R191). -/
def State.lastFlush (s : State) : State := if s.gcount = 0 then s else s.flush

theorem State.finishEncoder_cases (s : State) :
    (s.op = opLzEnc ∧ s.finishEncoder = s.lastFlush.complete s.lastFlush.wlen) ∨
      (s.op ≠ opLzEnc ∧ s.finishEncoder = { s.lastFlush with blen := s.lastFlush.wlen, phase := .pad }) := by
  have hop : s.lastFlush.op = s.op := by unfold State.lastFlush; split <;> simp
  by_cases h : s.op = opLzEnc
  · exact .inl ⟨h, if_pos (hop.trans h)⟩
  · exact .inr ⟨h, if_neg fun e => h (hop.symm.trans e)⟩

theorem State.lastFlush_frame (s : State) :
    { s.lastFlush with
      out := s.out, work := s.work, wlen := s.wlen, gflags := s.gflags, gcount := s.gcount, gbuf := s.gbuf } = s := by
  unfold State.lastFlush
  split
  · rfl
  · exact s.flush_frame

/-! ### A write to `CMD` -/

/-- How a command other than `NOP` begins on a block that is not busy (R250 to R254, R258). -/
inductive CommandMove (s : State) : State → Prop
  /-- The command's preconditions fail (R274, R275, R278). -/
  | error (op : BitVec 3) (mode : BitVec 1) (u : State) (e : ErrorKind)
      (hu : { u with n := (s.start op mode).n } = s.start op mode) (he : e.code.toNat ∈ errorsOf op mode) :
      CommandMove s (u.raise e)
  /-- `LZ_DEC` (R251). -/
  | decodeStream (mode : BitVec 1) : CommandMove s ((s.start opLzDec mode).startDecoder s.inLen)
  /-- `CT_DEC` (R253). -/
  | decodeArchive (mode : BitVec 1) : CommandMove s { s.start opCtDec mode with phase := .envelope }
  /-- `LZ_ENC` (R252) and `CT_ENC` compressed (R254). -/
  | encodeStream (op : BitVec 3) (mode : BitVec 1) (hop : op = opLzEnc ∨ op = opCtEnc ∧ mode = 1)
      (hmin : Config.minIn ≤ s.inLen.toNat) (hmax : s.inLen.toNat ≤ Config.maxIn) :
      CommandMove s
        ({ s.start op mode with n := s.inLen, phase := .compress }.emit (encode (.lzhdr (s.inLen.setWidth 24))))
  /-- `CT_ENC` raw (R254). -/
  | encodeRaw (hmax : s.inLen.toNat ≤ Config.maxIn) :
      CommandMove s { s.start opCtEnc 0 with
        work := Memory.copyFrom (fun a => s.inp.read .inp a) 0 0 s.inLen.toNat (s.start opCtEnc 0).work
        blen := s.inLen, phase := .pad }

theorem State.startCommand_of_busy {s : State} (hb : s.busy = true) (op : BitVec 3) (mode : BitVec 1)
    (run : State → State) : s.startCommand op mode run = s := by
  simp [State.startCommand, hb]

theorem State.startCommand_of_not_busy {s : State} (hb : s.busy = false) (op : BitVec 3) (mode : BitVec 1)
    (run : State → State) : s.startCommand op mode run = run (s.start op mode) := by
  simp [State.startCommand, hb]

/-- A busy block ignores every command (R260). -/
theorem exec_command_of_busy {i : Instr} {s : State} (hi : i.context = .command) (hb : s.busy = true) :
    exec i s = .next s := by
  cases i with
  | lit | refM | refL | refS | flags | lzhdr | lzhdrx | env17 | env04 | envUnknown => cases hi
  | nop => rfl
  | lzDec mode => exact congrArg _ (State.startCommand_of_busy hb ..)
  | lzEnc mode => exact congrArg _ (State.startCommand_of_busy hb ..)
  | ctDec mode => exact congrArg _ (State.startCommand_of_busy hb ..)
  | ctEncRaw => exact congrArg _ (State.startCommand_of_busy hb ..)
  | ctEncCompressed => exact congrArg _ (State.startCommand_of_busy hb ..)
  | reservedOp5 mode => exact congrArg _ (State.startCommand_of_busy hb ..)
  | reservedOp6 mode => exact congrArg _ (State.startCommand_of_busy hb ..)
  | reservedOp7 mode => exact congrArg _ (State.startCommand_of_busy hb ..)

theorem State.startEncoder_of_short {s : State} (h : s.ilenCmd.toNat < Config.minIn) :
    s.startEncoder = { s with n := s.ilenCmd }.raise .inputTooShort := if_pos h

theorem State.startEncoder_of_large {s : State} (hmin : Config.minIn ≤ s.ilenCmd.toNat)
    (hmax : Config.maxIn < s.ilenCmd.toNat) : s.startEncoder = { s with n := s.ilenCmd }.raise .inputTooLarge :=
  (if_neg (by simpa using hmin)).trans (if_pos hmax)

/-- An accepted length: the group is empty and the sub-header goes out (R180, R181). -/
theorem State.startEncoder_of_accepted {s : State} (hmin : Config.minIn ≤ s.ilenCmd.toNat)
    (hmax : s.ilenCmd.toNat ≤ Config.maxIn) :
    s.startEncoder =
      { s with
        n := s.ilenCmd, pos := 0, wlen := 0, gflags := 0, gcount := 0, gbuf := [], phase := .compress }.emit
        (encode (.lzhdr (s.ilenCmd.setWidth 24))) :=
  (if_neg (by simpa using hmin)).trans (if_neg (by simpa using hmax))

theorem startEncoder_move (s : State) {op : BitVec 3} {mode : BitVec 1}
    (hop : op = opLzEnc ∨ op = opCtEnc ∧ mode = 1) : CommandMove s (s.start op mode).startEncoder := by
  have herr : 4 ∈ errorsOf op mode ∧ 5 ∈ errorsOf op mode := by
    rcases hop with rfl | ⟨rfl, rfl⟩
    · exact ⟨by simp [errorsOf, opLzEnc, opLzDec], by simp [errorsOf, opLzEnc, opLzDec]⟩
    · exact ⟨by decide, by decide⟩
  rcases Nat.lt_or_ge (s.start op mode).ilenCmd.toNat Config.minIn with hmin | hmin
  · rw [State.startEncoder_of_short hmin]; exact .error op mode _ .inputTooShort rfl herr.1
  · rcases Nat.lt_or_ge Config.maxIn (s.start op mode).ilenCmd.toNat with hmax | hmax
    · rw [State.startEncoder_of_large hmin hmax]; exact .error op mode _ .inputTooLarge rfl herr.2
    · rw [State.startEncoder_of_accepted hmin hmax]; exact .encodeStream op mode hop hmin hmax

theorem State.loadRaw_of_large {s : State} (h : Config.maxIn < s.ilenCmd.toNat) :
    s.loadRaw = s.raise .inputTooLarge := if_pos h

theorem State.loadRaw_of_accepted {s : State} (h : s.ilenCmd.toNat ≤ Config.maxIn) :
    s.loadRaw =
      { s with
        work := Memory.copyFrom (fun a => s.inp.read .inp a) 0 0 s.ilenCmd.toNat s.work
        blen := s.ilenCmd, phase := .pad } := if_neg (by simpa using h)

theorem loadRaw_move (s : State) : CommandMove s (s.start opCtEnc 0).loadRaw := by
  rcases Nat.lt_or_ge Config.maxIn (s.start opCtEnc 0).ilenCmd.toNat with hmax | hmax
  · rw [State.loadRaw_of_large hmax]; exact .error opCtEnc 0 _ .inputTooLarge rfl (by decide)
  · rw [State.loadRaw_of_accepted hmax]; exact .encodeRaw hmax

/-- On a block that is not busy, a command is `NOP` or one of the moves above. -/
theorem exec_command_of_not_busy {i : Instr} {s t : State} (hi : i.context = .command) (hb : s.busy = false)
    (h : exec i s = .next t) : (i = .nop ∧ t = s) ∨ (i ≠ .nop ∧ CommandMove s t) := by
  have hstart (op : BitVec 3) (mode : BitVec 1) (run : State → State) (hmove : CommandMove s (run (s.start op mode)))
      (ht : Host.Outcome.next (φ := Fault) (ρ := Refusal) (s.startCommand op mode run) = .next t) : CommandMove s t := by
    rw [State.startCommand_of_not_busy hb] at ht
    cases ht
    exact hmove
  cases i with
  | lit | refM | refL | refS | flags | lzhdr | lzhdrx | env17 | env04 | envUnknown => cases hi
  | nop => cases h; exact .inl ⟨rfl, rfl⟩
  | lzDec mode => exact .inr ⟨nofun, hstart _ _ _ (.decodeStream mode) h⟩
  | lzEnc mode => exact .inr ⟨nofun, hstart _ _ _ (startEncoder_move s (.inl rfl)) h⟩
  | ctDec mode => exact .inr ⟨nofun, hstart _ _ _ (.decodeArchive mode) h⟩
  | ctEncRaw => exact .inr ⟨nofun, hstart _ _ _ (loadRaw_move s) h⟩
  | ctEncCompressed => exact .inr ⟨nofun, hstart _ _ _ (startEncoder_move s (.inr ⟨rfl, rfl⟩)) h⟩
  | reservedOp5 mode => exact .inr ⟨nofun, hstart _ _ _ (.error 5 mode _ .badCommand rfl (List.mem_singleton.2 rfl)) h⟩
  | reservedOp6 mode => exact .inr ⟨nofun, hstart _ _ _ (.error 6 mode _ .badCommand rfl (List.mem_singleton.2 rfl)) h⟩
  | reservedOp7 mode => exact .inr ⟨nofun, hstart _ _ _ (.error 7 mode _ .badCommand rfl (List.mem_singleton.2 rfl)) h⟩

/-! ### A move of the engine -/

/-- What a move of the engine can be, phase by phase. -/
inductive EngineMove (s : State) : State → Prop
  /-- An idle engine does nothing (R300). -/
  | idle (hp : s.phase = .idle) : EngineMove s s
  /-- The archive is invalid (R271). -/
  | archiveError (u : State) (hp : s.phase = .envelope) (hu : u = s ∨ ∃ tag seed, u = s.opened tag seed) :
      EngineMove s (u.raise .invalidArchive)
  /-- The archive is opened and its chain starts (R221 to R224, R227). -/
  | openArchive (tag : Byte) (seed : BitVec 24) (hp : s.phase = .envelope) (hlen : 4 ≤ s.ilenCmd.toNat)
      (hblocks : (s.opened tag seed).blen.toNat % 4 = 0)
      (hlz : tag = Config.tagLz → 1 ≤ (s.opened tag seed).blen.toNat) :
      EngineMove s { (s.opened tag seed).startChain with phase := .decipher }
  /-- A block of the deciphering chain (R203). -/
  | decipherBlock (hp : s.phase = .decipher) (hx : s.xp.toNat < s.blen.toNat) : EngineMove s s.decipherBlock
  /-- The deciphered stream goes to the token decoder (R226). -/
  | handOver (hp : s.phase = .decipher) (hx : s.blen.toNat ≤ s.xp.toNat) (htag : s.tag = Config.tagLz) :
      EngineMove s (s.startDecoder s.blen)
  /-- A raw archive ends in its payload (R227). -/
  | returnWork (hp : s.phase = .decipher) (hx : s.blen.toNat ≤ s.xp.toNat) (htag : s.tag ≠ Config.tagLz) :
      EngineMove s s.returnWork
  /-- The compressed stream is invalid or ends too early (R272, R273). -/
  | streamError (u : State) (e : ErrorKind) (hp : s.phase = .header ∨ s.phase = .tokens)
      (hu : { u with
        ip := s.ip, olen := s.olen, wp := s.wp, mask := s.mask, flags := s.flags, len := s.len, disp := s.disp } = s)
      (he : e = .invalidData ∨ e = .streamTooShort) : EngineMove s (u.raise e)
  /-- The sub-header declares the size (R130, R131). -/
  | declareSize (k : Nat) (size : Word) (hp : s.phase = .header) (hk : k ≤ s.ilen.toNat) :
      EngineMove s { s.decoderInit.advance k with size := size, phase := .tokens }
  /-- The output has the declared size (R143). -/
  | endDecoding (hp : s.phase = .tokens) (hs : s.size.toNat ≤ s.olen.toNat) : EngineMove s (s.complete s.size)
  /-- `FLAGS` (R133). -/
  | loadFlags (f : Byte) (hp : s.phase = .tokens) (hs : s.olen.toNat < s.size.toNat) (hm : s.mask = 0)
      (ha : 1 ≤ s.avail) : EngineMove s ((s.loadFlags f).advance 1)
  /-- `LIT` (R134). -/
  | literal (b : Byte) (hp : s.phase = .tokens) (hs : s.olen.toNat < s.size.toNat) (hm : s.mask ≠ 0)
      (ha : 1 ≤ s.avail) : EngineMove s ((s.classified.advance 1).produce b)
  /-- `REF_S`, `REF_M`, `REF_L` (R136 to R140). -/
  | reference (k : Nat) (len : BitVec 17) (disp : BitVec 13) (hp : s.phase = .tokens)
      (hs : s.olen.toNat < s.size.toNat) (hm : s.mask ≠ 0) (ha : k ≤ s.avail) (hd : disp.toNat ≤ s.olen.toNat)
      (hl : 1 ≤ len.toNat) :
      EngineMove s (((s.classified.advance k).setOperands len disp).copyBytes len.toNat)
  /-- A token is chosen and buffered (R182 to R190). -/
  | compressToken (hp : s.phase = .compress) (hpos : s.pos.toNat < s.n.toNat) : EngineMove s s.detect.emitToken
  /-- `LZ_ENC` ends (R191, R192). -/
  | endEncoding (hp : s.phase = .compress) (hpos : s.n.toNat ≤ s.pos.toNat) (hop : s.op = opLzEnc) :
      EngineMove s (s.lastFlush.complete s.lastFlush.wlen)
  /-- The body of `CT_ENC` is there (R228). -/
  | bodyReady (hp : s.phase = .compress) (hpos : s.n.toNat ≤ s.pos.toNat) (hop : s.op ≠ opLzEnc) :
      EngineMove s { s.lastFlush with blen := s.lastFlush.wlen, phase := .pad }
  /-- Padding, seed, tag and key (R229 to R231). -/
  | pad (hp : s.phase = .pad) : EngineMove s s.padStep
  /-- A block of the enciphering chain (R206). -/
  | encipherBlock (hp : s.phase = .encipher) (hx : s.xp.toNat < s.blen.toNat) : EngineMove s s.encipherBlock
  /-- `CT_ENC` ends (R232). -/
  | returnArchive (hp : s.phase = .encipher) (hx : s.blen.toNat ≤ s.xp.toNat) : EngineMove s s.returnArchive

/-- The test for whole blocks after the header parse (R224, R227). -/
theorem startDecipher_move {s : State} {tag : Byte} {seed : BitVec 24} (hp : s.phase = .envelope)
    (hlen : 4 ≤ s.ilenCmd.toNat) (hlz : tag = Config.tagLz → 1 ≤ (s.opened tag seed).blen.toNat) :
    EngineMove s (s.opened tag seed).startDecipher := by
  rcases (s.opened tag seed).startDecipher_cases with ⟨-, e⟩ | ⟨hb, e⟩
  · rw [e]; exact .archiveError _ hp (.inr ⟨_, _, rfl⟩)
  · rw [e]; exact .openArchive tag seed hp hlen hb hlz

theorem execEnv17_move {s : State} (hp : s.phase = .envelope) (seed : BitVec 24) :
    ∃ t, exec (.env17 seed) s = .next t ∧ EngineMove s t := by
  refine ⟨_, rfl, ?_⟩
  rcases s.openArchive_cases Config.tagLz seed _ with ⟨-, e⟩ | ⟨hlen, e⟩
  · rw [e]; exact .archiveError s hp (.inl rfl)
  · rw [e]
    split
    · exact .archiveError _ hp (.inr ⟨_, _, rfl⟩)
    · exact startDecipher_move hp hlen fun _ => by omega

theorem execEnv04_move {s : State} (hp : s.phase = .envelope) (seed : BitVec 24) :
    ∃ t, exec (.env04 seed) s = .next t ∧ EngineMove s t := by
  refine ⟨_, rfl, ?_⟩
  rcases s.openArchive_cases Config.tagRaw seed _ with ⟨-, e⟩ | ⟨hlen, e⟩
  · rw [e]; exact .archiveError s hp (.inl rfl)
  · rw [e]
    split
    · exact .archiveError _ hp (.inr ⟨_, _, rfl⟩)
    · exact startDecipher_move hp hlen fun h => absurd h (by decide)

theorem execEnvUnknown_move {s : State} (hp : s.phase = .envelope) (tag : Byte) (seed : BitVec 24) :
    ∃ t, exec (.envUnknown tag seed) s = .next t ∧ EngineMove s t := by
  refine ⟨_, rfl, ?_⟩
  rcases s.openArchive_cases tag seed _ with ⟨-, e⟩ | ⟨hlen, e⟩
  · rw [e]; exact .archiveError s hp (.inl rfl)
  · rw [e]; exact .archiveError _ hp (.inr ⟨_, _, rfl⟩)

theorem envelope_move {s t : State} (hp : s.phase = .envelope)
    (h : s.runDecoded .invalidArchive (decode .envelope s.archiveWindow) = .next t) : EngineMove s t := by
  have hraise : EngineMove s (s.raise .invalidArchive) := .archiveError s hp (.inl rfl)
  rcases State.runDecoded_cases h with ⟨i, k, hd, hx⟩ | ⟨-, ht⟩ | ⟨hd, -⟩
  · have hmove : ∃ t', exec i s = .next t' ∧ EngineMove s t' := by
      rcases Instr.of_envelope_context (context_of_decode hd) with ⟨seed, rfl⟩ | ⟨seed, rfl⟩ | ⟨tag, seed, rfl⟩
      · exact execEnv17_move hp seed
      · exact execEnv04_move hp seed
      · exact execEnvUnknown_move hp tag seed
    obtain ⟨t', ht', hm⟩ := hmove
    rw [hx] at ht'; cases ht'
    exact hm
  · cases ht; exact hraise
  · unfold decode at hd
    split at hd <;> simp_all

theorem declareSize_move {s : State} (hp : s.phase = .header) (k : Nat) (size : Word) :
    EngineMove s (s.declareSize k size) := by
  rcases s.decoderInit.requireBytes_cases k fun s => { s.advance k with size := size, phase := .tokens } with
    ⟨-, e⟩ | ⟨hk, e⟩
  · rw [State.declareSize, e]; exact .streamError _ _ (.inl hp) rfl (.inr rfl)
  · rw [State.declareSize, e]; exact .declareSize k size hp (by simpa [State.avail] using hk)

theorem header_move {s t : State} (hp : s.phase = .header)
    (h : s.runDecoded .streamTooShort (decode .header s.decoderInit.streamWindow) = .next t) : EngineMove s t := by
  rcases State.runDecoded_cases h with ⟨i, k, hd, hx⟩ | ⟨-, ht⟩ | ⟨-, ht⟩
  · rcases Instr.of_header_context (context_of_decode hd) with ⟨size, rfl⟩ | ⟨size, rfl⟩
    · cases hx; exact declareSize_move hp 4 _
    · cases hx; exact declareSize_move hp 8 _
  · cases ht; exact .streamError s _ (.inl hp) rfl (.inr rfl)
  · cases ht; exact .streamError s _ (.inl hp) rfl (.inl rfl)

theorem lengthS_pos (l : BitVec 4) : 1 ≤ (lengthS l).toNat := by
  have := l.isLt
  simp [lengthS, Config.biasS]; omega

theorem lengthM_pos (v : BitVec 8) : 1 ≤ (lengthM v).toNat := by
  have := v.isLt
  simp [lengthM, Config.biasM]; omega

theorem lengthL_pos (v : BitVec 16) : 1 ≤ (lengthL v).toNat := by
  have := v.isLt
  simp [lengthL, Config.biasL]; omega

/-- A back-reference on the state whose mask has been shifted (R133). -/
theorem backReference_move {s : State} (hp : s.phase = .tokens) (hs : s.olen.toNat < s.size.toNat) (hm : s.mask ≠ 0)
    (k : Nat) {len : BitVec 17} (hl : 1 ≤ len.toNat) (disp : BitVec 13) :
    EngineMove s (s.classified.backReference k len disp) := by
  rcases s.classified.backReference_cases k len disp with ⟨-, e⟩ | ⟨-, -, e⟩ | ⟨ha, hd, e⟩
  · rw [e]; exact .streamError _ _ (.inr hp) rfl (.inr rfl)
  · rw [e]; exact .streamError _ _ (.inr hp) rfl (.inl rfl)
  · rw [e]; exact .reference k len disp hp hs hm ha hd hl

theorem token_move {s t : State} (hp : s.phase = .tokens) (hs : s.olen.toNat < s.size.toNat) (hm : s.mask ≠ 0)
    (h : s.classified.runDecoded .streamTooShort (decode (.token s.isRef) s.streamWindow) = .next t) :
    EngineMove s t := by
  rcases State.runDecoded_cases h with ⟨i, k, hd, hx⟩ | ⟨-, ht⟩ | ⟨-, ht⟩
  · rcases Instr.of_token_context (context_of_decode hd) with ⟨b, rfl⟩ | ⟨l, d, rfl⟩ | ⟨v, d, rfl⟩ | ⟨v, d, rfl⟩
    · cases hx
      rcases s.classified.requireBytes_cases 1 fun s => (s.advance 1).produce b with ⟨-, e⟩ | ⟨ha, e⟩
      · rw [e]; exact .streamError _ _ (.inr hp) rfl (.inr rfl)
      · rw [e]; exact .literal b hp hs hm ha
    · cases hx; exact backReference_move hp hs hm 2 (lengthS_pos l) _
    · cases hx; exact backReference_move hp hs hm 3 (lengthM_pos v) _
    · cases hx; exact backReference_move hp hs hm 4 (lengthL_pos v) _
  · cases ht; exact .streamError _ _ (.inr hp) rfl (.inr rfl)
  · cases ht; exact .streamError _ _ (.inr hp) rfl (.inl rfl)

theorem flags_move {s t : State} (hp : s.phase = .tokens) (hs : s.olen.toNat < s.size.toNat) (hm : s.mask = 0)
    (h : s.runDecoded .streamTooShort (decode .flags s.streamWindow) = .next t) : EngineMove s t := by
  rcases State.runDecoded_cases h with ⟨i, k, hd, hx⟩ | ⟨-, ht⟩ | ⟨-, ht⟩
  · obtain ⟨f, rfl⟩ := Instr.of_flags_context (context_of_decode hd)
    cases hx
    rcases s.requireBytes_cases 1 fun s => (s.loadFlags f).advance 1 with ⟨-, e⟩ | ⟨ha, e⟩
    · rw [e]; exact .streamError _ _ (.inr hp) rfl (.inr rfl)
    · rw [e]; exact .loadFlags f hp hs hm ha
  · cases ht; exact .streamError _ _ (.inr hp) rfl (.inr rfl)
  · cases ht; exact .streamError _ _ (.inr hp) rfl (.inl rfl)

theorem tokens_move {s t : State} (hp : s.phase = .tokens) (h : s.tokenStep = .next t) : EngineMove s t := by
  unfold State.tokenStep at h
  split at h
  · cases h; exact .endDecoding hp ‹_›
  · split at h
    · exact flags_move hp (by omega) ‹_› h
    · exact token_move hp (by omega) ‹_› h

theorem compress_move {s : State} (hp : s.phase = .compress) : EngineMove s s.compressStep := by
  unfold State.compressStep
  split
  · exact .compressToken hp ‹_›
  · rcases s.finishEncoder_cases with ⟨hop, e⟩ | ⟨hop, e⟩
    · rw [e]; exact .endEncoding hp (by omega) hop
    · rw [e]; exact .bodyReady hp (by omega) hop

theorem decipher_move {s : State} (hp : s.phase = .decipher) : EngineMove s s.decipherStep := by
  unfold State.decipherStep
  split
  · exact .decipherBlock hp ‹_›
  · split
    · exact .handOver hp (by omega) ‹_›
    · exact .returnWork hp (by omega) ‹_›

theorem encipher_move {s : State} (hp : s.phase = .encipher) : EngineMove s s.encipherStep := by
  unfold State.encipherStep
  split
  · exact .encipherBlock hp ‹_›
  · exact .returnArchive hp (by omega)

/-- Every step of the engine is one of its moves. -/
theorem engineStep_move {s t : State} (h : engineStep s = .next t) : EngineMove s t := by
  unfold engineStep at h
  split at h
  · cases h; exact .idle ‹_›
  · exact envelope_move ‹_› h
  · cases h; exact decipher_move ‹_›
  · exact header_move ‹_› h
  · exact tokens_move ‹_› h
  · cases h; exact compress_move ‹_›
  · cases h; exact .pad ‹_›
  · cases h; exact encipher_move ‹_›

/-! ### A move of the host -/

/-- What an action of the host can do. -/
inductive HostMove (s : State) : HostAction → State → Prop
  /-- A read, or a write that is ignored: nothing of the block changes. -/
  | observe (a : HostAction) (bus : Word) (free : Nat) : HostMove s a { s with bus := bus, free := free }
  /-- A command starts (R250). -/
  | command (v : Word) (t : State) (hb : s.busy = false) (hn : decodeCommand v ≠ .nop) (hm : CommandMove s t) :
      HostMove s (.writeReg 0x00 v) t
  /-- `IN_LEN` is stored (R35). -/
  | writeInLen (v : Word) (hb : s.busy = false) : HostMove s (.writeReg 0x04 v) { s with inLen := v }
  /-- A byte of `IN` is stored (R40). -/
  | writeInput (a : Nat) (b : Byte) (hb : s.busy = false) : HostMove s (.writeIn a b) { s with inp := s.inp.write a b }
  /-- Hardware reset (R300). -/
  | reset : HostMove s .reset s.hardwareReset

theorem writeRegister_move {s t : State} {offset : Nat} {v : Word} (h : s.writeRegister offset v = .next t) :
    HostMove s (.writeReg offset v) t := by
  have hsame (ht : Host.Outcome.next (φ := Fault) (ρ := Refusal) s = .next t) : HostMove s (.writeReg offset v) t := by
    cases ht; exact .observe _ s.bus s.free
  unfold State.writeRegister at h
  split at h
  case isTrue h0 =>
    subst h0
    split at h
    case isTrue => exact hsame h
    case isFalse hb =>
      have hb : s.busy = false := by simpa using hb
      rcases exec_command_of_not_busy (decodeCommand_context v) hb h with ⟨-, rfl⟩ | ⟨hn, hm⟩
      · exact hsame rfl
      · exact .command v t hb hn hm
  split at h
  case isTrue h4 =>
    subst h4
    cases hb : s.busy with
    | true => rw [hb] at h; exact hsame h
    | false => rw [hb] at h; cases h; exact .writeInLen v hb
  repeat' split at h
  all_goals cases h <;> exact .observe _ s.bus s.free

theorem readRegister_move {s t : State} {offset : Nat} (h : s.readRegister offset = .next t) :
    HostMove s (.readReg offset) t := by
  unfold State.readRegister at h
  repeat' split at h
  all_goals cases h <;> exact .observe _ _ s.free

theorem readOutput_move (s : State) (a : Nat) : HostMove s (.readOut a) (s.readOutput a) := by
  unfold State.readOutput
  split <;> exact .observe _ _ _

theorem writeInput_move (s : State) (a : Nat) (b : Byte) : HostMove s (.writeIn a b) (s.writeInput a b) := by
  unfold State.writeInput
  cases hb : s.busy with
  | true => exact .observe _ s.bus s.free
  | false => exact .writeInput a b hb

/-- Every action of the host that is not refused is one of its moves. -/
theorem hostStep_move {s t : State} {a : HostAction} (h : hostStep a s = .next t) : HostMove s a t := by
  cases a with
  | writeReg offset v => exact writeRegister_move h
  | readReg offset => exact readRegister_move h
  | writeIn offset v => cases h; exact writeInput_move s offset v
  | readOut offset => cases h; exact readOutput_move s offset
  | reset => cases h; exact .reset

/-- A property that does not look at the list of turns and that every move keeps, every step keeps. -/
theorem step_preserves {P : State → Prop} (turns : ∀ s rest, P s → P { s with turns := rest })
    (engine : ∀ s t, EngineMove s t → P s → P t) (host : ∀ s a t, HostMove s a t → P s → P t) {s t : State}
    (hs : P s) (h : step s = .next t) : P t := by
  rcases step_cases h with ⟨-, he⟩ | ⟨rest, -, he⟩ | ⟨a, rest, -, hh⟩ | ⟨rest, -, -, he⟩ | ⟨rest, -, -, ht⟩
  · exact engine _ _ (engineStep_move he) hs
  · exact engine _ _ (engineStep_move he) (turns s rest hs)
  · exact host _ a _ (hostStep_move hh) (turns s rest hs)
  · exact engine _ _ (engineStep_move he) hs
  · cases ht; exact turns s rest hs

end Sys2Proof.Machine
end

section
/-! The host's side of the block: what a command write, a register access, a memory access and hardware reset do
(O9, O26, O31, O33 to O36), and what the engine leaves to the host (O38). -/

namespace Sys2Proof.Machine

/-! ### The host's turn -/

theorem step_of_host_turn {s : State} {a : HostAction} {rest : List Turn} (h : s.turns = .host a :: rest) :
    step s = hostStep a { s with turns := rest } := by
  simp [step, takeTurn, h]

theorem State.writeRegister_cmd (s : State) (v : Word) :
    s.writeRegister 0x00 v = if s.busy then .next s else exec (decodeCommand v) s := rfl

/-- Settles O9: the turn is the host's write to offset 0x00, which tests `BUSY` before it decodes the command. -/
theorem stepRunsCommandWrite : Obligations.StepRunsCommandWrite := by
  intro s v rest hturn
  have hstep : step s = if s.busy then .next { s with turns := rest }
      else exec (decodeCommand v) { s with turns := rest } := step_of_host_turn hturn
  exact ⟨fun hb => by simp [hstep, hb], fun hb => by simp [hstep, hb]⟩

/-- Settles O33, offset by offset. -/
theorem registersReadAsMapped : Obligations.RegistersReadAsMapped := by
  intro s offset rest hturn
  rw [step_of_host_turn hturn]
  refine ⟨?_, ?_, ?_, ?_, ?_⟩ <;> rintro rfl <;> rfl

/-- Settles O31: every command but `NOP` goes through `startCommand`, which tests `BUSY` first. -/
theorem busyBlockIgnoresCommands : Obligations.BusyBlockIgnoresCommands :=
  fun _ _ => exec_command_of_busy

/-- Settles O36: `hardwareReset` gives each of these registers a fixed value. -/
theorem hardwareResetGivesIdleBlock : Obligations.HardwareResetGivesIdleBlock := by
  intro s rest hturn
  exact ⟨_, step_of_host_turn hturn, rfl, rfl, rfl, rfl, rfl, ⟨rfl, rfl, rfl, rfl, rfl⟩, ⟨rfl, rfl, rfl, rfl⟩,
    rfl, rfl, rfl, rfl⟩

/-! ### Accesses to `IN` and `OUT` -/

theorem State.writeInput_of_busy {s : State} (hb : s.busy = true) (a : Nat) (b : Byte) : s.writeInput a b = s := by
  simp [State.writeInput, hb]

theorem State.writeInput_of_not_busy {s : State} (hb : s.busy = false) (a : Nat) (b : Byte) :
    s.writeInput a b = { s with inp := s.inp.write a b } := by
  simp [State.writeInput, hb]

theorem State.readOutput_of_busy {s : State} (hb : s.busy = true) (a : Nat) :
    s.readOutput a = { s with bus := (Config.freeValue 8 s.free).setWidth 32, free := s.free + 1 } := by
  simp [State.readOutput, hb]

theorem State.readOutput_of_not_busy {s : State} (hb : s.busy = false) (a : Nat) :
    s.readOutput a = { s with bus := (s.out.read .out a).setWidth 32 } := by
  simp [State.readOutput, hb]

/-- A byte on the bus is zero-extended (log 26). -/
theorem setWidth_byte_toNat (b : Byte) : (b.setWidth 32).toNat = b.toNat := by
  have := b.isLt
  simp; omega

/-- Settles O34: each access by what it does on a busy block and on one that is not. -/
theorem hostAccessesInputAndOutput : Obligations.HostAccessesInputAndOutput := by
  intro s a b v rest
  refine ⟨fun hturn => ?_, fun hturn => ?_, fun hturn => ?_⟩
  · have hstep : step s = .next (State.writeInput a b { s with turns := rest }) := step_of_host_turn hturn
    refine ⟨fun hb => ?_, fun hb => ?_⟩
    · rw [hstep, State.writeInput_of_busy (s := { s with turns := rest }) hb]
    · rw [hstep, State.writeInput_of_not_busy (s := { s with turns := rest }) hb]
      exact ⟨_, rfl, rfl, rfl, Memory.read_write_self .inp s.inp a b,
        fun a' ha => Memory.read_write_other .inp s.inp b ha⟩
  · have hstep : step s = .next (if s.busy then { s with turns := rest } else { s with turns := rest, inLen := v }) :=
      step_of_host_turn hturn
    exact ⟨fun hb => by simp [hstep, hb], fun hb => by simp [hstep, hb]⟩
  · have hstep : step s = .next (State.readOutput a { s with turns := rest }) := step_of_host_turn hturn
    refine ⟨fun hb => ?_, fun hb => ?_⟩
    · rw [hstep, State.readOutput_of_busy (s := { s with turns := rest }) hb]
      refine ⟨_, rfl, rfl, rfl, ?_⟩
      rw [setWidth_byte_toNat]
      exact (Config.freeValue 8 s.free).isLt
    · rw [hstep, State.readOutput_of_not_busy (s := { s with turns := rest }) hb]
      exact ⟨_, rfl, rfl, rfl, setWidth_byte_toNat _⟩

/-! ### Register offsets -/

/-- The offsets of the five registers (R33). -/
def registerOffsets : List Nat := [0x00, 0x04, 0x08, 0x0C, 0x10]

theorem State.writeRegister_undefined {offset : Nat} (h : offset ∉ registerOffsets) (s : State) (v : Word) :
    s.writeRegister offset v = .refused (.undefinedRegister offset) := by
  simp [registerOffsets] at h
  simp [State.writeRegister, h]

theorem State.readRegister_undefined {offset : Nat} (h : offset ∉ registerOffsets) (s : State) :
    s.readRegister offset = .refused (.undefinedRegister offset) := by
  simp [registerOffsets] at h
  simp [State.readRegister, h]

theorem State.writeRegister_defined {offset : Nat} (h : offset ∈ registerOffsets) (s : State) (v : Word) :
    ∃ t, s.writeRegister offset v = .next t := by
  simp only [registerOffsets, List.mem_cons, List.not_mem_nil, or_false] at h
  rcases h with rfl | rfl | rfl | rfl | rfl
  · rw [State.writeRegister_cmd]
    split
    · exact ⟨_, rfl⟩
    · exact exec_next _ s
  all_goals exact ⟨_, rfl⟩

theorem State.readRegister_defined {offset : Nat} (h : offset ∈ registerOffsets) (s : State) :
    ∃ t, s.readRegister offset = .next t := by
  simp only [registerOffsets, List.mem_cons, List.not_mem_nil, or_false] at h
  rcases h with rfl | rfl | rfl | rfl | rfl <;> exact ⟨_, rfl⟩

/-- Settles O35: the engine always has a next state, and so has the host except at an offset without a register. -/
theorem onlyUndefinedRegistersAreRefused : Obligations.OnlyUndefinedRegistersAreRefused := by
  intro s
  constructor
  · rcases step_cases (s := s) rfl with ⟨-, he⟩ | ⟨rest, -, he⟩ | ⟨a, rest, hturn, hh⟩ | ⟨rest, -, -, he⟩ | ⟨rest, -, -, ht⟩
    · rw [← he]; exact .inl (engineStep_next _)
    · rw [← he]; exact .inl (engineStep_next _)
    · rw [← hh]
      cases a with
      | writeReg offset v =>
        by_cases h : offset ∈ registerOffsets
        · exact .inl (State.writeRegister_defined h _ v)
        · exact .inr ⟨offset, rest, h, State.writeRegister_undefined h _ v, .inr ⟨v, hturn⟩⟩
      | readReg offset =>
        by_cases h : offset ∈ registerOffsets
        · exact .inl (State.readRegister_defined h _)
        · exact .inr ⟨offset, rest, h, State.readRegister_undefined h _, .inl hturn⟩
      | writeIn offset b => exact .inl ⟨_, rfl⟩
      | readOut offset => exact .inl ⟨_, rfl⟩
      | reset => exact .inl ⟨_, rfl⟩
    · rw [← he]; exact .inl (engineStep_next _)
    · exact .inl ⟨_, ht⟩
  · rintro offset rest v h (hturn | hturn)
    · rw [step_of_host_turn hturn]; exact State.readRegister_undefined h _
    · rw [step_of_host_turn hturn]; exact State.writeRegister_undefined h _ v

/-! ### The start of the decoding commands -/

/-- The latches and cursors right after the start of a command (R45, R250). -/
theorem State.start_started (op : BitVec 3) (mode : BitVec 1) (s : State) :
    s.Started op mode (s.start op mode) ∧ (s.start op mode).DecoderCleared ∧ (s.start op mode).EncoderCleared :=
  ⟨⟨rfl, rfl, rfl, rfl, rfl, rfl, rfl, rfl, rfl, rfl⟩, ⟨rfl, rfl, rfl, rfl, rfl⟩, ⟨rfl, rfl, rfl, rfl⟩⟩

/-- Settles O26: what follows the common start of a command changes only the phase and the decoder's registers. -/
theorem decodeCommandsStart : Obligations.DecodeCommandsStart := by
  intro mode s hb
  have hlz : exec (.lzDec mode) s = .next ((s.start opLzDec mode).startDecoder s.inLen) :=
    congrArg _ (State.startCommand_of_not_busy hb ..)
  have hct : exec (.ctDec mode) s = .next { s.start opCtDec mode with phase := .envelope } :=
    congrArg _ (State.startCommand_of_not_busy hb ..)
  obtain ⟨hstarted, hdecoder, hencoder⟩ := s.start_started opLzDec mode
  obtain ⟨hstarted', hdecoder', hencoder'⟩ := s.start_started opCtDec mode
  exact ⟨⟨_, hlz, hstarted, hdecoder, hencoder, rfl, rfl⟩, ⟨_, hct, hstarted', hdecoder', hencoder', rfl⟩⟩

/-! ### What the engine leaves alone -/

/-- The host's own fields (R35, R40): `IN`, `IN_LEN`, what was read and the moves to come. -/
def State.SameHostFields (s t : State) : Prop :=
  t.inp = s.inp ∧ t.inLen = s.inLen ∧ t.bus = s.bus ∧ t.turns = s.turns

/-- A frame that spares the host's fields spares them. -/
theorem State.SameHostFields.of_frame {s t u : State} (hf : u = s)
    (h : u.inp = t.inp ∧ u.inLen = t.inLen ∧ u.bus = t.bus ∧ u.turns = t.turns) : s.SameHostFields t := by
  subst hf
  obtain ⟨h1, h2, h3, h4⟩ := h
  exact ⟨h1.symm, h2.symm, h3.symm, h4.symm⟩

theorem EngineMove.sameHostFields {s t : State} (h : EngineMove s t) : s.SameHostFields t := by
  cases h with
  | archiveError u hp hu => rcases hu with rfl | ⟨tag, seed, rfl⟩ <;> exact ⟨rfl, rfl, rfl, rfl⟩
  | streamError u e hp hu => exact .of_frame hu ⟨rfl, rfl, rfl, rfl⟩
  | reference k len disp =>
    exact .of_frame (s := (s.classified.advance k).setOperands len disp) (State.copyBytes_frame len.toNat _)
      ⟨rfl, rfl, rfl, rfl⟩
  | compressToken => exact .of_frame s.detect_emitToken_frame ⟨rfl, rfl, rfl, rfl⟩
  | endEncoding => exact .of_frame s.lastFlush_frame ⟨rfl, rfl, rfl, rfl⟩
  | bodyReady => exact .of_frame s.lastFlush_frame ⟨rfl, rfl, rfl, rfl⟩
  | _ => exact ⟨rfl, rfl, rfl, rfl⟩

/-- Settles O38, by the frame of each move of the engine. -/
theorem engineNeverWritesInput : Obligations.EngineNeverWritesInput :=
  fun _ _ h => (engineStep_move h).sameHostFields

end Sys2Proof.Machine
end

section
/-! Every step keeps `STATUS`, `ERRCODE`, `OUT_LEN` and the phase legal together (O51), and `DONE` set until the next command or
reset (O39). -/

namespace Sys2Proof.Machine

/-- `t` shows the host the same registers as `s` (R36 to R38), and it runs if `s` does. -/
def State.SameReport (s t : State) : Prop :=
  t.status = s.status ∧ t.errcode = s.errcode ∧ t.outLen = s.outLen ∧ (s.phase ≠ .idle → t.phase ≠ .idle)

/-- The states of a running command: `BUSY` alone is set, without an error code or a result. -/
def State.Running (s : State) : Prop :=
  s.phase ≠ .idle ∧ s.status = 1 ∧ s.errcode = 0 ∧ s.outLen = 0

theorem State.StatusLegal.running {s : State} (h : s.StatusLegal) (hp : s.phase ≠ .idle) : s.Running := by
  rcases h with h | ⟨hi, -⟩ | ⟨hi, -⟩ | ⟨hi, -⟩
  · exact h
  all_goals exact absurd hi hp

theorem State.Running.of_sameReport {s t : State} (h : s.Running) (hst : s.SameReport t) : t.Running := by
  obtain ⟨hp, hstatus, herr, hout⟩ := h
  obtain ⟨hstatus', herr', hout', hp'⟩ := hst
  exact ⟨hp' hp, hstatus'.trans hstatus, herr'.trans herr, hout'.trans hout⟩

/-- A frame that spares the registers the host sees, and the phase, spares the report. -/
theorem State.SameReport.of_frame {s t u : State} (hf : u = s)
    (h : u.status = t.status ∧ u.errcode = t.errcode ∧ u.outLen = t.outLen ∧ u.phase = t.phase) : s.SameReport t := by
  subst hf
  obtain ⟨h1, h2, h3, h4⟩ := h
  exact ⟨h1.symm, h2.symm, h3.symm, fun hp => h4 ▸ hp⟩

/-! ### The end of a command -/

theorem ErrorKind.code_setWidth_toNat (e : ErrorKind) : (e.code.setWidth 32).toNat = e.code.toNat := by
  cases e <;> rfl

theorem mem_codes_of_mem_errorsOf {op : BitVec 3} {mode : BitVec 1} {c : Nat} (h : c ∈ errorsOf op mode) :
    c ∈ [1, 2, 3, 4, 5, 7] := by
  unfold errorsOf at h
  repeat' split at h
  all_goals simp at h ⊢; omega

theorem State.raise_statusLegal {e : ErrorKind} (he : e.code.toNat ∈ [1, 2, 3, 4, 5, 7]) (s : State) :
    (s.raise e).StatusLegal :=
  .inr (.inr (.inr ⟨rfl, rfl, rfl, by simpa only [State.raise_errcode, ErrorKind.code_setWidth_toNat] using he⟩))

theorem State.complete_statusLegal (r : Word) (s : State) : (s.complete r).StatusLegal :=
  .inr (.inr (.inl ⟨rfl, rfl, rfl⟩))

/-! ### The engine's moves -/

/-- A state in which a command of the engine has just ended, with success (R255) or with an error of R271 to R273. -/
def State.EndOfRun (t : State) : Prop :=
  (∃ u r, t = State.complete r u) ∨ ∃ u e, t = State.raise e u ∧ e.code.toNat ∈ [1, 2, 3]

theorem State.complete_endOfRun (r : Word) (s : State) : (s.complete r).EndOfRun := .inl ⟨s, r, rfl⟩

theorem State.raise_endOfRun {e : ErrorKind} (he : e.code.toNat ∈ [1, 2, 3]) (s : State) : (s.raise e).EndOfRun :=
  .inr ⟨s, e, rfl, he⟩

theorem State.EndOfRun.statusLegal {t : State} (h : t.EndOfRun) : t.StatusLegal := by
  rcases h with ⟨u, r, rfl⟩ | ⟨u, e, rfl, he⟩
  · exact State.complete_statusLegal r u
  · exact State.raise_statusLegal (by simp at he ⊢; omega) u

/-- A move of the engine stays idle, goes on with the command, or ends it. -/
theorem EngineMove.report {s t : State} (h : EngineMove s t) :
    (s.phase = .idle ∧ t = s) ∨ (s.phase ≠ .idle ∧ (s.SameReport t ∨ t.EndOfRun)) := by
  cases h with
  | idle hp => exact .inl ⟨hp, rfl⟩
  | archiveError u hp => exact .inr ⟨by simp [hp], .inr (State.raise_endOfRun (by decide) u)⟩
  | streamError u e hp hu he =>
    have he' : e.code.toNat ∈ [1, 2, 3] := by rcases he with rfl | rfl <;> decide
    exact .inr ⟨by rcases hp with hp | hp <;> simp [hp], .inr (State.raise_endOfRun he' u)⟩
  | returnWork hp => exact .inr ⟨by simp [hp], .inr (State.complete_endOfRun _ _)⟩
  | endDecoding hp => exact .inr ⟨by simp [hp], .inr (State.complete_endOfRun _ _)⟩
  | endEncoding hp => exact .inr ⟨by simp [hp], .inr (State.complete_endOfRun _ _)⟩
  | returnArchive hp => exact .inr ⟨by simp [hp], .inr (State.complete_endOfRun _ _)⟩
  | openArchive tag seed hp => exact .inr ⟨by simp [hp], .inl ⟨rfl, rfl, rfl, nofun⟩⟩
  | handOver hp => exact .inr ⟨by simp [hp], .inl ⟨rfl, rfl, rfl, nofun⟩⟩
  | declareSize k size hp => exact .inr ⟨by simp [hp], .inl ⟨rfl, rfl, rfl, nofun⟩⟩
  | pad hp => exact .inr ⟨by simp [hp], .inl ⟨rfl, rfl, rfl, nofun⟩⟩
  | decipherBlock hp => exact .inr ⟨by simp [hp], .inl ⟨rfl, rfl, rfl, id⟩⟩
  | encipherBlock hp => exact .inr ⟨by simp [hp], .inl ⟨rfl, rfl, rfl, id⟩⟩
  | loadFlags f hp => exact .inr ⟨by simp [hp], .inl ⟨rfl, rfl, rfl, id⟩⟩
  | literal b hp => exact .inr ⟨by simp [hp], .inl ⟨rfl, rfl, rfl, id⟩⟩
  | reference k len disp hp =>
    exact .inr ⟨by simp [hp], .inl (.of_frame (s := (s.classified.advance k).setOperands len disp)
      (State.copyBytes_frame len.toNat _) ⟨rfl, rfl, rfl, rfl⟩)⟩
  | compressToken hp => exact .inr ⟨by simp [hp], .inl (.of_frame s.detect_emitToken_frame ⟨rfl, rfl, rfl, rfl⟩)⟩
  | bodyReady hp =>
    obtain ⟨hstatus, herr, hout, -⟩ := State.SameReport.of_frame s.lastFlush_frame ⟨rfl, rfl, rfl, rfl⟩
    exact .inr ⟨by simp [hp], .inl ⟨hstatus, herr, hout, nofun⟩⟩

theorem EngineMove.statusLegal {s t : State} (h : EngineMove s t) (hs : s.StatusLegal) : t.StatusLegal := by
  rcases h.report with ⟨-, rfl⟩ | ⟨hp, hsame | hend⟩
  · exact hs
  · exact .inl ((hs.running hp).of_sameReport hsame)
  · exact hend.statusLegal

/-! ### The host's moves -/

theorem CommandMove.statusLegal {s t : State} (h : CommandMove s t) : t.StatusLegal := by
  cases h with
  | error op mode u e hu he => exact State.raise_statusLegal (mem_codes_of_mem_errorsOf he) u
  | decodeStream mode => exact .inl ⟨nofun, rfl, rfl, rfl⟩
  | decodeArchive mode => exact .inl ⟨nofun, rfl, rfl, rfl⟩
  | encodeRaw => exact .inl ⟨nofun, rfl, rfl, rfl⟩
  | encodeStream op mode =>
    have hstart : State.Running { s.start op mode with n := s.inLen, phase := .compress } := ⟨nofun, rfl, rfl, rfl⟩
    exact .inl (hstart.of_sameReport (.of_frame (State.emit_frame _ _) ⟨rfl, rfl, rfl, rfl⟩))

theorem HostMove.statusLegal {s t : State} {a : HostAction} (h : HostMove s a t) (hs : s.StatusLegal) :
    t.StatusLegal := by
  cases h with
  | observe => exact hs
  | command v t hb hn hm => exact hm.statusLegal
  | writeInLen => exact hs
  | writeInput => exact hs
  | reset => exact .inr (.inl ⟨rfl, rfl, rfl, rfl⟩)

/-- Settles O51: a running command keeps its report or ends, and only a command or reset changes an idle block's. -/
theorem stepKeepsStatusLegal : Obligations.StepKeepsStatusLegal :=
  fun _ _ => step_preserves (fun _ _ h => h) (fun _ _ => EngineMove.statusLegal) (fun _ _ _ => HostMove.statusLegal)

/-! ### `DONE` -/

/-- With `DONE` set the engine is idle (R36, R39). -/
theorem State.StatusLegal.idle_of_done {s : State} (h : s.StatusLegal) (hd : s.done = true) : s.phase = .idle := by
  rcases h with ⟨-, hstatus, -⟩ | ⟨hi, -⟩ | ⟨hi, -⟩ | ⟨hi, -⟩
  · simp [State.done, hstatus] at hd
  all_goals exact hi

theorem EngineMove.eq_of_idle {s t : State} (h : EngineMove s t) (hp : s.phase = .idle) : t = s := by
  rcases h.report with ⟨-, ht⟩ | ⟨hn, -⟩
  · exact ht
  · exact absurd hp hn

/-- Only a command or hardware reset clears `DONE` of an idle block. -/
theorem HostMove.done {s t : State} {a : HostAction} (h : HostMove s a t) (hd : s.done = true) :
    t.done = true ∨ a = .reset ∨ ∃ v, a = .writeReg 0x00 v ∧ decodeCommand v ≠ .nop := by
  cases h with
  | observe => exact .inl hd
  | command v t hb hn hm => exact .inr (.inr ⟨v, rfl, hn⟩)
  | writeInLen => exact .inl hd
  | writeInput => exact .inl hd
  | reset => exact .inr (.inl rfl)

/-- Settles O39: with `DONE` set the engine is idle, so only the host can clear it. -/
theorem doneStaysUntilNextCommand : Obligations.DoneStaysUntilNextCommand := by
  intro s t hs hd h
  have hp := hs.idle_of_done hd
  rcases step_cases h with ⟨-, he⟩ | ⟨rest, -, he⟩ | ⟨a, rest, hturn, hh⟩ | ⟨rest, -, -, he⟩ | ⟨rest, -, -, ht⟩
  · rw [(engineStep_move he).eq_of_idle hp]; exact .inl hd
  · rw [(engineStep_move he).eq_of_idle hp]; exact .inl hd
  · rcases (hostStep_move hh).done hd with hd' | rfl | ⟨v, rfl, hn⟩
    · exact .inl hd'
    · exact .inr (.inl (by simp [hturn]))
    · exact .inr (.inr ⟨v, by simp [hturn], hn⟩)
  · rw [(engineStep_move he).eq_of_idle hp]; exact .inl hd
  · cases ht; exact .inl hd

end Sys2Proof.Machine
end

section
/-! Every step keeps the memories in canonical form and `HIST` within its 4096 bytes (O52). -/

namespace Sys2Proof.Machine

/-- A write lists no offset but its own and the old ones. -/
theorem Memory.mem_insertCell {c : List Host.Cell} {a : Nat} {b : Byte} {x : Host.Cell}
    (h : x ∈ Memory.insertCell c a b) : x = (a, b) ∨ x ∈ c := by
  induction c with
  | nil => simpa [Memory.insertCell] using h
  | cons kv rest ih =>
    obtain ⟨k, v⟩ := kv
    unfold Memory.insertCell at h
    split at h
    · simpa using h
    · split at h
      · rcases List.mem_cons.1 h with h | h
        · exact .inl h
        · exact .inr (List.mem_cons_of_mem _ h)
      · rcases List.mem_cons.1 h with h | h
        · exact .inr (h ▸ List.mem_cons_self)
        · exact (ih h).imp id (List.mem_cons_of_mem _)

/-! ### The shared operations -/

theorem State.start_memoryLegal (op : BitVec 3) (mode : BitVec 1) {s : State} (h : s.MemoryLegal) :
    (s.start op mode).MemoryLegal := by
  obtain ⟨hin, -, -, -, -⟩ := h
  exact ⟨hin, rfl, rfl, rfl, nofun⟩

theorem State.raise_memoryLegal (e : ErrorKind) {s : State} (h : s.MemoryLegal) : (s.raise e).MemoryLegal := by
  obtain ⟨hin, -, hwork, hhist, hcells⟩ := h
  exact ⟨hin, rfl, hwork, hhist, hcells⟩

/-- `OUT` may be replaced by any memory in canonical form. -/
theorem State.MemoryLegal.with_out {s : State} (h : s.MemoryLegal) {m : Memory} (hm : m.wf = true) :
    { s with out := m }.MemoryLegal := by
  obtain ⟨hin, -, hwork, hhist, hcells⟩ := h
  exact ⟨hin, hm, hwork, hhist, hcells⟩

/-- `WORK` may be replaced by any memory in canonical form. -/
theorem State.MemoryLegal.with_work {s : State} (h : s.MemoryLegal) {m : Memory} (hm : m.wf = true) :
    { s with work := m }.MemoryLegal := by
  obtain ⟨hin, hout, -, hhist, hcells⟩ := h
  exact ⟨hin, hout, hm, hhist, hcells⟩

theorem State.MemoryLegal.out_wf {s : State} (h : s.MemoryLegal) : s.out.wf = true := by
  obtain ⟨-, hout, -⟩ := h
  exact hout

theorem State.MemoryLegal.work_wf {s : State} (h : s.MemoryLegal) : s.work.wf = true := by
  obtain ⟨-, -, hwork, -⟩ := h
  exact hwork

/-- A produced byte goes to `HIST` at `wp`, which is below 4096 (R27, R43). -/
theorem State.produce_memoryLegal (b : Byte) {s : State} (h : s.MemoryLegal) : (s.produce b).MemoryLegal := by
  obtain ⟨hin, hout, hwork, hhist, hcells⟩ := h
  refine ⟨hin, Memory.write_wf _ b hout, hwork, Memory.write_wf _ b hhist, fun c hc => ?_⟩
  rcases Memory.mem_insertCell hc with rfl | hc
  · exact s.wp.isLt
  · exact hcells c hc

theorem State.copyBytes_memoryLegal (k : Nat) {s : State} (h : s.MemoryLegal) : (s.copyBytes k).MemoryLegal := by
  induction k generalizing s with
  | zero => exact h
  | succ k ih =>
    unfold State.copyBytes
    split
    · exact ih (State.produce_memoryLegal _ h)
    · exact h

theorem State.emit_memoryLegal (bytes : List Byte) {s : State} (h : s.MemoryLegal) : (s.emit bytes).MemoryLegal := by
  rcases s.emit_cases bytes with ⟨-, e⟩ | ⟨-, e⟩
  · rw [e]; exact h.with_out (Memory.writeAll_wf _ _ h.out_wf)
  · rw [e]; exact h.with_work (Memory.writeAll_wf _ _ h.work_wf)

theorem State.flush_memoryLegal {s : State} (h : s.MemoryLegal) : s.flush.MemoryLegal :=
  State.emit_memoryLegal s.gbuf (State.emit_memoryLegal [s.gflags] h)

theorem State.lastFlush_memoryLegal {s : State} (h : s.MemoryLegal) : s.lastFlush.MemoryLegal := by
  unfold State.lastFlush
  split
  · exact h
  · exact State.flush_memoryLegal h

theorem State.account_memoryLegal (token : List Byte) (isRef : Bool) {s : State} (h : s.MemoryLegal) :
    (s.account token isRef).MemoryLegal := by
  rcases s.account_cases token isRef with ⟨-, e⟩ | ⟨-, e⟩
  · rw [e]; exact h
  · rw [e]; exact State.flush_memoryLegal h

theorem State.detect_memoryLegal {s : State} (h : s.MemoryLegal) : s.detect.MemoryLegal := by
  unfold State.detect
  split <;> exact h

theorem State.emitToken_memoryLegal {s : State} (h : s.MemoryLegal) : s.emitToken.MemoryLegal := by
  unfold State.emitToken
  split
  · exact State.account_memoryLegal _ false (s := { s with pos := s.pos + 1 }) h
  · exact State.account_memoryLegal _ true (s := { s with pos := s.pos + s.mlen.setWidth 32 }) h

theorem State.opened_memoryLegal (tag : Byte) (seed : BitVec 24) {s : State} (h : s.MemoryLegal) :
    (s.opened tag seed).MemoryLegal :=
  h.with_work (Memory.copyFrom_wf _ _ _ _ h.work_wf)

/-! ### The moves -/

theorem EngineMove.memoryLegal {s t : State} (h : EngineMove s t) (hs : s.MemoryLegal) : t.MemoryLegal := by
  cases h with
  | idle => exact hs
  | archiveError u hp hu =>
    rcases hu with rfl | ⟨tag, seed, rfl⟩
    · exact State.raise_memoryLegal _ hs
    · exact State.raise_memoryLegal _ (State.opened_memoryLegal tag seed hs)
  | openArchive tag seed => exact State.opened_memoryLegal tag seed hs
  | decipherBlock => exact hs.with_work (Memory.writeWord_wf _ _ hs.work_wf)
  | encipherBlock => exact hs.with_work (Memory.writeWord_wf _ _ hs.work_wf)
  | handOver => exact hs
  | returnWork => exact hs.with_out (Memory.copyFrom_wf _ _ _ _ hs.out_wf)
  | streamError u e hp hu =>
    rw [← hu] at hs
    exact State.raise_memoryLegal e (s := u) hs
  | declareSize => exact hs
  | endDecoding => exact hs
  | loadFlags => exact hs
  | literal b => exact State.produce_memoryLegal b (s := s.classified.advance 1) hs
  | reference k len disp =>
    exact State.copyBytes_memoryLegal _ (s := (s.classified.advance k).setOperands len disp) hs
  | compressToken => exact State.emitToken_memoryLegal (State.detect_memoryLegal hs)
  | endEncoding => exact State.lastFlush_memoryLegal hs
  | bodyReady => exact State.lastFlush_memoryLegal hs
  | pad => exact hs.with_work (Memory.writeAll_wf _ _ hs.work_wf)
  | returnArchive => exact hs.with_out (Memory.copyFrom_wf _ _ _ _ (Memory.writeAll_wf _ _ hs.out_wf))

theorem CommandMove.memoryLegal {s t : State} (h : CommandMove s t) (hs : s.MemoryLegal) : t.MemoryLegal := by
  cases h with
  | error op mode u e hu =>
    have hstart := State.start_memoryLegal op mode hs
    rw [← hu] at hstart
    exact State.raise_memoryLegal e (s := u) hstart
  | decodeStream mode => exact State.start_memoryLegal opLzDec mode (s := s) hs
  | decodeArchive mode => exact State.start_memoryLegal opCtDec mode (s := s) hs
  | encodeStream op mode =>
    exact State.emit_memoryLegal _ (s := { s.start op mode with n := s.inLen, phase := .compress })
      (State.start_memoryLegal op mode (s := s) hs)
  | encodeRaw => exact (State.start_memoryLegal opCtEnc 0 hs).with_work (Memory.copyFrom_wf _ _ _ _ rfl)

theorem HostMove.memoryLegal {s t : State} {a : HostAction} (h : HostMove s a t) (hs : s.MemoryLegal) :
    t.MemoryLegal := by
  cases h with
  | observe => exact hs
  | command v t hb hn hm => exact hm.memoryLegal hs
  | writeInLen => exact hs
  | writeInput a b =>
    obtain ⟨hin, hrest⟩ := hs
    exact ⟨Memory.write_wf a b hin, hrest⟩
  | reset => exact ⟨rfl, rfl, rfl, rfl, nofun⟩

/-- Settles O52, by cases on the moves: each memory operation keeps the canonical form, and `HIST` is written only at `wp`. -/
theorem stepKeepsMemoryLegal : Obligations.StepKeepsMemoryLegal :=
  fun _ _ => step_preserves (fun _ _ h => h) (fun _ _ => EngineMove.memoryLegal) (fun _ _ _ => HostMove.memoryLegal)

end Sys2Proof.Machine
end

section
/-! Every step keeps the token decoder's registers in range and `HIST` a view of the output (O54). -/

namespace Sys2Proof.Machine

/-! ### The flag mask (R25) -/

/-- The mask is one-hot, or 0 when the flag byte is used up (R25). -/
def MaskLegal (m : BitVec 8) : Prop := m = 0 ∨ ∃ k < 8, m.toNat = 2 ^ k

theorem MaskLegal.shift {m : BitVec 8} (h : MaskLegal m) : MaskLegal (m >>> 1) := by
  rcases h with rfl | ⟨k, hk, hm⟩
  · exact .inl rfl
  · have hshift : (m >>> 1).toNat = 2 ^ k / 2 := by simp [hm, Nat.shiftRight_eq_div_pow]
    cases k with
    | zero => exact .inl (BitVec.eq_of_toNat_eq (by simpa using hshift))
    | succ k => exact .inr ⟨k, by omega, by rw [hshift, Nat.pow_succ]; omega⟩

/-! ### `HIST` as a view of the output (R27, R141) -/

/-- A produced byte goes to `OUT` at `olen` and to `HIST` at `olen` modulo 4096, where it replaces the one byte that leaves the
window. -/
theorem State.HistoryView.produce {s : State} (h : s.HistoryView) (b : Byte) (hroom : s.olen.toNat + 1 < 2 ^ 32) :
    (s.produce b).HistoryView := by
  obtain ⟨hwp, hview⟩ := h
  have holen : (s.produce b).olen.toNat = s.olen.toNat + 1 := by
    simp only [State.produce_olen, BitVec.toNat_add]
    exact Nat.mod_eq_of_lt hroom
  unfold Config.window at hwp hview
  refine ⟨?_, fun k hk hwindow => ?_⟩
  · rw [holen, State.produce_wp, BitVec.toNat_add, hwp]
    simp [Config.window]
  · rw [holen] at hk hwindow
    unfold Config.window at hwindow ⊢
    rw [State.produce_hist, State.produce_out, Memory.read_write, Memory.read_write, hwp]
    by_cases hlast : k = s.olen.toNat
    · simp [hlast]
    · rw [if_neg (by omega), if_neg hlast]
      exact hview k (by omega) (by omega)

theorem State.HistoryView.copyBytes {s : State} (h : s.HistoryView) (k : Nat) : (s.copyBytes k).HistoryView := by
  induction k generalizing s with
  | zero => exact h
  | succ k ih =>
    unfold State.copyBytes
    split
    · exact ih (h.produce _ (by have := s.size.isLt; omega))
    · exact h

/-! ### The decoder's registers in its main loop -/

section
variable (k : Nat) (s : State)

@[simp] theorem State.copyBytes_phase : (s.copyBytes k).phase = s.phase := (congrArg State.phase (s.copyBytes_frame k) :)
@[simp] theorem State.copyBytes_ip : (s.copyBytes k).ip = s.ip := (congrArg State.ip (s.copyBytes_frame k) :)
@[simp] theorem State.copyBytes_ilen : (s.copyBytes k).ilen = s.ilen := (congrArg State.ilen (s.copyBytes_frame k) :)
@[simp] theorem State.copyBytes_size : (s.copyBytes k).size = s.size := (congrArg State.size (s.copyBytes_frame k) :)
@[simp] theorem State.copyBytes_mask : (s.copyBytes k).mask = s.mask := (congrArg State.mask (s.copyBytes_frame k) :)

end

/-- What `DecoderLegal` says in the main loop. -/
def State.LoopLegal (s : State) : Prop :=
  s.ip.toNat ≤ s.ilen.toNat ∧ s.olen.toNat ≤ s.size.toNat ∧ MaskLegal s.mask ∧ s.HistoryView

theorem State.decoderLegal_iff (s : State) : s.DecoderLegal ↔ (s.phase = .tokens → s.LoopLegal) := by
  unfold State.DecoderLegal State.LoopLegal MaskLegal State.HistoryView
  constructor
  · intro h hp
    obtain ⟨hip, holen, hwp, hmask, hview⟩ := h hp
    exact ⟨hip, holen, hmask, hwp, hview⟩
  · intro h hp
    obtain ⟨hip, holen, hmask, hwp, hview⟩ := h hp
    exact ⟨hip, holen, hwp, hmask, hview⟩

theorem State.LoopLegal.classified {s : State} (h : s.LoopLegal) : s.classified.LoopLegal := by
  obtain ⟨hip, holen, hmask, hview⟩ := h
  exact ⟨hip, holen, hmask.shift, hview⟩

theorem State.LoopLegal.loadFlags {s : State} (h : s.LoopLegal) (f : Byte) : (s.loadFlags f).LoopLegal := by
  obtain ⟨hip, holen, -, hview⟩ := h
  exact ⟨hip, holen, .inr ⟨7, by omega, rfl⟩, hview⟩

theorem State.advance_ip_toNat {s : State} {k : Nat} (ha : k ≤ s.avail) (hip : s.ip.toNat ≤ s.ilen.toNat) :
    (s.advance k).ip.toNat = s.ip.toNat + k := by
  have := s.ilen.isLt
  unfold State.avail at ha
  rw [State.advance_ip, BitVec.toNat_add, BitVec.toNat_ofNat]
  omega

theorem State.LoopLegal.advance {s : State} (h : s.LoopLegal) {k : Nat} (ha : k ≤ s.avail) :
    (s.advance k).LoopLegal := by
  obtain ⟨hip, holen, hmask, hview⟩ := h
  refine ⟨?_, holen, hmask, hview⟩
  rw [State.advance_ip_toNat ha hip, State.advance_ilen]
  unfold State.avail at ha
  omega

theorem State.LoopLegal.produce {s : State} (h : s.LoopLegal) (b : Byte) (hroom : s.olen.toNat < s.size.toNat) :
    (s.produce b).LoopLegal := by
  obtain ⟨hip, -, hmask, hview⟩ := h
  have hsize := s.size.isLt
  refine ⟨hip, ?_, hmask, hview.produce b (by omega)⟩
  rw [State.produce_olen, State.produce_size, BitVec.toNat_add]
  exact le_trans (Nat.mod_le _ _) hroom

theorem State.LoopLegal.copyBytes {s : State} (h : s.LoopLegal) (k : Nat) : (s.copyBytes k).LoopLegal := by
  obtain ⟨hip, holen, hmask, hview⟩ := h
  refine ⟨by simpa using hip, ?_, by simpa using hmask, hview.copyBytes k⟩
  rw [s.copyBytes_olen k holen, State.copyBytes_size]
  exact Nat.min_le_right _ _

/-- The main loop begins with an empty output (R130). -/
theorem State.decoderInit_loopLegal {s : State} {k : Nat} (hk : k ≤ s.ilen.toNat) (size : Word) :
    { s.decoderInit.advance k with size := size, phase := .tokens }.LoopLegal := by
  have hip : (s.decoderInit.advance k).ip.toNat = k := by
    rw [State.advance_ip_toNat (by simpa [State.avail] using hk) (by simp)]
    simp
  exact ⟨hip.trans_le hk, Nat.zero_le _, .inl rfl, rfl, fun j hj => absurd hj (Nat.not_lt_zero j)⟩

/-! ### The moves -/

theorem EngineMove.decoderLegal {s t : State} (h : EngineMove s t) (hs : s.DecoderLegal) : t.DecoderLegal := by
  have hloop := s.decoderLegal_iff.1 hs
  rw [State.decoderLegal_iff]
  cases h with
  | idle hp => exact hloop
  | declareSize k size hp hk => exact fun _ => State.decoderInit_loopLegal hk size
  | loadFlags f hp hsize hm ha => exact fun _ => ((hloop hp).loadFlags f).advance ha
  | literal b hp hsize hm ha => exact fun _ => ((hloop hp).classified.advance ha).produce b hsize
  | reference k len disp hp hsize hm ha =>
    have hadvanced := (hloop hp).classified.advance ha
    exact fun _ => State.LoopLegal.copyBytes (s := (s.classified.advance k).setOperands len disp) hadvanced _
  | compressToken hp =>
    intro ht
    rw [State.detect_emitToken_phase, hp] at ht
    cases ht
  | decipherBlock hp => intro ht; cases hp.symm.trans ht
  | encipherBlock hp => intro ht; cases hp.symm.trans ht
  | _ => nofun

theorem CommandMove.phase_ne_tokens {s t : State} (h : CommandMove s t) : t.phase ≠ .tokens := by
  cases h with
  | encodeStream op mode =>
    rw [State.emit_phase]
    nofun
  | _ => nofun

theorem HostMove.decoderLegal {s t : State} {a : HostAction} (h : HostMove s a t) (hs : s.DecoderLegal) :
    t.DecoderLegal := by
  cases h with
  | observe => exact hs
  | command v t hb hn hm => exact fun ht => absurd ht hm.phase_ne_tokens
  | writeInLen => exact hs
  | writeInput => exact hs
  | reset => nofun

/-- Settles O54: the moves of the main loop keep its registers legal, and no other move but the sub-header's enters it. -/
theorem stepKeepsDecoderLegal : Obligations.StepKeepsDecoderLegal :=
  fun _ _ => step_preserves (fun _ _ h => h) (fun _ _ => EngineMove.decoderLegal) (fun _ _ _ => HostMove.decoderLegal)

end Sys2Proof.Machine
end

section
/-! Every step keeps the token encoder's group and the XOR cursor in range (O55), and reset satisfies every invariant (O50). -/

namespace Sys2Proof.Machine

/-! ### The match found is within the forward limit (R160) -/

theorem bestMatch_le (x : Nat → Byte) (pos maxlen c : Nat) : (bestMatch x pos maxlen c).1 ≤ maxlen := by
  induction c with
  | zero => exact Nat.zero_le _
  | succ c ih =>
    obtain ⟨-, hle, -⟩ := matchLength_spec x pos (c + 1) maxlen 0
    simp only [bestMatch]
    split
    · simpa using hle
    · exact ih

theorem State.detect_mlen_le (s : State) : s.detect.mlen.toNat ≤ s.n.toNat - s.pos.toNat := by
  have hbest : s.findMatch.1 ≤ forwardLimit s.n.toNat s.pos.toNat := bestMatch_le _ _ _ _
  have hlimit : forwardLimit s.n.toNat s.pos.toNat ≤ s.n.toNat - s.pos.toNat := Nat.min_le_left _ _
  unfold State.detect
  split
  · exact Nat.zero_le _
  · exact (BitVec.toNat_ofNat _ _).trans_le ((Nat.mod_le _ _).trans (hbest.trans hlimit))

/-! ### A token in its group (R189, R190) -/

/-- A flag bit is set only at the place of a token of the group. -/
theorem groupFlags_mod {gflags : BitVec 8} {gcount : BitVec 4} (isRef : Bool) (hcount : gcount.toNat < 8)
    (h : gflags.toNat % 2 ^ (8 - gcount.toNat) = 0) :
    (groupFlags gflags gcount isRef).toNat % 2 ^ (8 - (gcount.toNat + 1)) = 0 := by
  have hold : gflags.toNat % 2 ^ (8 - (gcount.toNat + 1)) = 0 :=
    Nat.mod_eq_zero_of_dvd ((Nat.pow_dvd_pow 2 (by omega)).trans (Nat.dvd_of_mod_eq_zero h))
  have hbit : 128 >>> gcount.toNat = 2 ^ (8 - (gcount.toNat + 1)) := by
    rw [Nat.shiftRight_eq_div_pow, show 128 = 2 ^ 7 from rfl, Nat.pow_div (by omega) (by omega)]
    congr 1
    omega
  cases isRef with
  | false => exact hold
  | true =>
    have hor : (groupFlags gflags gcount true).toNat = gflags.toNat ||| 128 >>> gcount.toNat := by simp [groupFlags]
    rw [hor, Nat.or_mod_two_pow, hold, hbit, Nat.mod_self]
    rfl

/-- The group and the stream after `p` bytes of input: fewer than 8 tokens of at most 4 bytes, no flag bit beyond them, and the
stream within the bound of R196. -/
def State.GroupLegal (p : Nat) (s : State) : Prop :=
  s.gcount.toNat < 8 ∧ s.gbuf.length ≤ 4 * s.gcount.toNat ∧ s.gflags.toNat % 2 ^ (8 - s.gcount.toNat) = 0 ∧
    4 ≤ s.wlen.toNat ∧ 8 * s.wlen.toNat + 8 * s.gbuf.length + s.gcount.toNat ≤ 32 + 9 * p

theorem State.flush_wlen_toNat {s : State} (h : s.wlen.toNat + 1 + s.gbuf.length < 2 ^ 32) :
    s.flush.wlen.toNat = s.wlen.toNat + 1 + s.gbuf.length := by
  rw [State.flush_wlen, BitVec.toNat_add, BitVec.toNat_add, BitVec.toNat_ofNat]
  simp
  omega

/-- A flush pays the flag byte with the bits of its tokens. -/
theorem State.flush_groupLegal {s : State} {p : Nat} (hp : p ≤ Config.maxIn) (hwlen : 4 ≤ s.wlen.toNat)
    (hbound : 8 * s.wlen.toNat + 8 * s.gbuf.length + 8 ≤ 32 + 9 * p) : s.flush.GroupLegal p := by
  unfold Config.maxIn at hp
  have hw := State.flush_wlen_toNat (s := s) (by omega)
  have hcount : s.flush.gcount.toNat = 0 := rfl
  refine ⟨by omega, by simp, by simp, by omega, ?_⟩
  rw [hcount, State.flush_gbuf, List.length_nil]
  omega

/-- A token of at most 4 bytes that stands for enough input keeps the bound of R196. -/
theorem State.account_groupLegal {s : State} {p q : Nat} {token : List Byte} (isRef : Bool) (h : s.GroupLegal p)
    (hq : q ≤ Config.maxIn) (htoken : token.length ≤ 4) (hcost : 8 * token.length + 1 + 9 * p ≤ 9 * q) :
    (s.account token isRef).GroupLegal q := by
  obtain ⟨hcount, hbuf, hflags, hwlen, hbound⟩ := h
  have hcount' : (s.gcount + 1).toNat = s.gcount.toNat + 1 := by
    rw [BitVec.toNat_add]
    exact Nat.mod_eq_of_lt (by simp; omega)
  have hlength : (s.gbuf ++ token).length = s.gbuf.length + token.length := List.length_append
  rcases s.account_cases token isRef with ⟨hne, e⟩ | ⟨heq, e⟩
  · rw [e]
    refine ⟨?_, ?_, ?_, hwlen, ?_⟩
    · simp only [hcount'] at hne ⊢; omega
    · simp only [hcount', hlength]; omega
    · simpa only [hcount'] using groupFlags_mod isRef hcount hflags
    · simp only [hcount', hlength]; omega
  · rw [e]
    simp only [hcount'] at heq
    exact State.flush_groupLegal hq hwlen (by simp only [hlength]; omega)

/-- A back-reference takes at most 4 bytes, and fewer than 9 bits for each byte it stands for. -/
theorem encode_refToken_cost {len : BitVec 17} (disp : BitVec 13) (h : 3 ≤ len.toNat) :
    (encode (refToken len disp)).length ≤ 4 ∧ 8 * (encode (refToken len disp)).length + 1 ≤ 9 * len.toNat := by
  unfold refToken Config.maxM Config.maxS
  split
  · simp only [encode, List.length_cons, List.length_nil]; omega
  · split <;> simp only [encode, List.length_cons, List.length_nil] <;> omega

/-! ### The encoder's registers in its main loop -/

/-- What `EncoderLegal` says in the main loop. -/
def State.CompressLegal (s : State) : Prop :=
  s.n = s.ilenCmd ∧ Config.minIn ≤ s.n.toNat ∧ s.n.toNat ≤ Config.maxIn ∧ s.pos.toNat ≤ s.n.toNat ∧
    s.GroupLegal s.pos.toNat

theorem State.EncoderLegal.compressLegal {s : State} (h : s.EncoderLegal) (hp : s.phase = .compress) :
    s.CompressLegal := h hp

section
variable (token : List Byte) (isRef : Bool) (s : State)

@[simp] theorem State.account_pos : (s.account token isRef).pos = s.pos :=
  (congrArg State.pos (s.account_frame token isRef) :)
@[simp] theorem State.detect_pos : s.detect.pos = s.pos := (congrArg State.pos s.detect_frame :)
@[simp] theorem State.detect_n : s.detect.n = s.n := (congrArg State.n s.detect_frame :)
@[simp] theorem State.detect_emitToken_n : s.detect.emitToken.n = s.n := (congrArg State.n s.detect_emitToken_frame :)
@[simp] theorem State.detect_emitToken_ilenCmd : s.detect.emitToken.ilenCmd = s.ilenCmd :=
  (congrArg State.ilenCmd s.detect_emitToken_frame :)

end

theorem State.emitToken_of_short {s : State} (h : s.mlen.toNat < 3) :
    s.emitToken = { s with pos := s.pos + 1 }.account (encode (.lit (s.inp.read .inp s.pos.toNat))) false := if_pos h

theorem State.emitToken_of_match {s : State} (h : 3 ≤ s.mlen.toNat) :
    s.emitToken = { s with pos := s.pos + s.mlen.setWidth 32 }.account (encode (refToken s.mlen s.mdisp)) true :=
  if_neg (by simpa [Config.minMatch] using h)

/-- A chosen token moves `pos` on within the input and keeps the group legal (R183 to R190). -/
theorem State.emitToken_groupLegal {s : State} (h : s.GroupLegal s.pos.toNat) (hn : s.n.toNat ≤ Config.maxIn)
    (hpos : s.pos.toNat < s.n.toNat) (hmlen : s.mlen.toNat ≤ s.n.toNat - s.pos.toNat) :
    s.emitToken.pos.toNat ≤ s.n.toNat ∧ s.emitToken.GroupLegal s.emitToken.pos.toNat := by
  have hn' := s.n.isLt
  rcases Nat.lt_or_ge s.mlen.toNat 3 with hshort | hmatch
  · have hpos' : (s.pos + 1).toNat = s.pos.toNat + 1 := by rw [BitVec.toNat_add]; simp; omega
    rw [State.emitToken_of_short hshort, State.account_pos, hpos']
    refine ⟨by omega, State.account_groupLegal (p := s.pos.toNat) false h (by omega) ?_ ?_⟩ <;>
      simp only [encode, List.length_cons, List.length_nil] <;> omega
  · have hpos' : (s.pos + s.mlen.setWidth 32).toNat = s.pos.toNat + s.mlen.toNat := by
      rw [BitVec.toNat_add, BitVec.toNat_setWidth]; omega
    obtain ⟨hlength, hcost⟩ := encode_refToken_cost s.mdisp hmatch
    rw [State.emitToken_of_match hmatch, State.account_pos, hpos']
    exact ⟨by omega, State.account_groupLegal (p := s.pos.toNat) true h (by omega) hlength (by omega)⟩

theorem State.CompressLegal.token {s : State} (h : s.CompressLegal) (hpos : s.pos.toNat < s.n.toNat) :
    s.detect.emitToken.CompressLegal := by
  obtain ⟨hn, hmin, hmax, -, hgroup⟩ := h
  have hdetect : s.detect.GroupLegal s.detect.pos.toNat := by
    rw [State.detect_pos]
    unfold State.detect
    split <;> exact hgroup
  obtain ⟨hpos', hgroup'⟩ := State.emitToken_groupLegal hdetect (by simpa using hmax) (by simpa using hpos)
    (by simpa using s.detect_mlen_le)
  refine ⟨?_, ?_, ?_, ?_, hgroup'⟩
  · simpa using hn
  · simpa using hmin
  · simpa using hmax
  · simpa using hpos'

/-- The main loop begins with the sub-header alone in the stream (R180, R181). -/
theorem State.start_compressLegal {s : State} (op : BitVec 3) (mode : BitVec 1)
    (hmin : Config.minIn ≤ s.inLen.toNat) (hmax : s.inLen.toNat ≤ Config.maxIn) :
    ({ s.start op mode with n := s.inLen, phase := .compress }.emit
      (encode (.lzhdr (s.inLen.setWidth 24)))).CompressLegal := by
  rcases State.emit_cases (encode (.lzhdr (s.inLen.setWidth 24)))
      { s.start op mode with n := s.inLen, phase := .compress } with ⟨-, e⟩ | ⟨-, e⟩ <;> rw [e] <;>
    exact ⟨rfl, hmin, hmax, Nat.zero_le _, Nat.zero_lt_succ 7, Nat.zero_le _, rfl, le_refl 4, le_refl 32⟩

theorem EngineMove.encoderLegal {s t : State} (h : EngineMove s t) (hs : s.EncoderLegal) : t.EncoderLegal := by
  cases h with
  | idle => exact hs
  | compressToken hp hpos => exact fun _ => (hs.compressLegal hp).token hpos
  | decipherBlock hp => intro ht; cases hp.symm.trans ht
  | encipherBlock hp => intro ht; cases hp.symm.trans ht
  | loadFlags f hp => intro ht; cases hp.symm.trans ht
  | literal b hp => intro ht; cases hp.symm.trans ht
  | reference k len disp hp =>
    intro ht
    rw [State.copyBytes_phase] at ht
    cases hp.symm.trans ht
  | _ => nofun

theorem CommandMove.encoderLegal {s t : State} (h : CommandMove s t) : t.EncoderLegal := by
  cases h with
  | encodeStream op mode hop hmin hmax => exact fun _ => State.start_compressLegal op mode hmin hmax
  | _ => nofun

/-! ### The XOR region (R66, R203, R206, R231) -/

/-- The region is a whole number of blocks and the cursor stands on a block inside it, or at its end. -/
def State.RegionLegal (s : State) : Prop :=
  s.xp.toNat % 4 = 0 ∧ s.blen.toNat % 4 = 0 ∧ s.xp.toNat ≤ s.blen.toNat

/-- The body before padding: short enough for the length registers, and in `compressed` mode with its sub-header. -/
def State.BodyLegal (s : State) : Prop := s.blen.toNat < 2 ^ 25 ∧ (s.mode = 1 → 4 ≤ s.blen.toNat)

theorem State.chainLegal_iff (s : State) :
    s.ChainLegal ↔ (s.phase = .decipher ∨ s.phase = .encipher → s.RegionLegal) ∧ (s.phase = .pad → s.BodyLegal) :=
  Iff.rfl

theorem State.ChainLegal.of_region {s : State} (h : s.RegionLegal) (hp : s.phase ≠ .pad) : s.ChainLegal :=
  ⟨fun _ => h, fun h' => absurd h' hp⟩

theorem State.ChainLegal.of_body {s : State} (h : s.BodyLegal) (hp : s.phase = .pad) : s.ChainLegal :=
  ⟨fun h' => by simp [hp] at h', fun _ => h⟩

theorem State.ChainLegal.of_phase {s : State} (hd : s.phase ≠ .decipher) (he : s.phase ≠ .encipher)
    (hp : s.phase ≠ .pad) : s.ChainLegal :=
  ⟨fun h => absurd h (not_or.2 ⟨hd, he⟩), fun h => absurd h hp⟩

/-- The next block of a chain. -/
theorem State.RegionLegal.next {s t : State} (h : s.RegionLegal) (hx : s.xp.toNat < s.blen.toNat)
    (hxp : t.xp = s.xp + 4) (hblen : t.blen = s.blen) : t.RegionLegal := by
  obtain ⟨hxmod, hbmod, -⟩ := h
  have hb := s.blen.isLt
  have hxp' : t.xp.toNat = s.xp.toNat + 4 := by rw [hxp, BitVec.toNat_add]; simp; omega
  unfold State.RegionLegal
  rw [hxp', hblen]
  omega

theorem regionStart_toNat (tag : Byte) : (regionStart tag).toNat = if tag = Config.tagLz then 4 else 0 := by
  unfold regionStart
  split <;> rfl

/-- A chain starts on a whole number of blocks that holds the header a compressed body has in clear (R224, R231). -/
theorem State.startChain_regionLegal {s : State} (hblocks : s.blen.toNat % 4 = 0)
    (hlz : s.tag = Config.tagLz → 1 ≤ s.blen.toNat) : s.startChain.RegionLegal := by
  unfold State.RegionLegal
  rw [State.startChain_xp, State.startChain_blen, regionStart_toNat]
  split
  · have := hlz ‹_›
    omega
  · omega

/-! ### The body of `CT_ENC` (R228, R229) -/

theorem add_padCount_mod (b : Nat) : (b + padCount b) % 4 = 0 := by
  unfold padCount Config.block
  omega

theorem padCount_lt (b : Nat) : padCount b < 4 := Nat.mod_lt _ (by decide)

theorem State.padStep_blen {s : State} (h : s.BodyLegal) :
    s.padStep.blen.toNat = s.blen.toNat + padCount s.blen.toNat := by
  obtain ⟨hlt, -⟩ := h
  have hpad := padCount_lt s.blen.toNat
  have hblen : s.padStep.blen = s.blen + BitVec.ofNat 32 (padCount s.blen.toNat) := rfl
  rw [hblen, BitVec.toNat_add, BitVec.toNat_ofNat]
  omega

theorem State.padStep_regionLegal {s : State} (h : s.BodyLegal) : s.padStep.RegionLegal := by
  have hblen := State.padStep_blen h
  obtain ⟨-, hmode⟩ := h
  have hxp : s.padStep.xp = if s.mode = 1 then 4 else 0 :=
    apply_ite regionStart (s.mode = 1) Config.tagLz Config.tagRaw
  unfold State.RegionLegal
  rw [hxp, hblen]
  split
  · exact ⟨rfl, add_padCount_mod _, (hmode ‹_›).trans (Nat.le_add_right _ _)⟩
  · exact ⟨rfl, add_padCount_mod _, Nat.zero_le _⟩

/-- The encoded stream is a legal body (R196). -/
theorem State.CompressLegal.body {s : State} (h : s.CompressLegal) :
    { s.lastFlush with blen := s.lastFlush.wlen, phase := .pad }.BodyLegal := by
  obtain ⟨-, -, hmax, hpos, hcount, -, -, hwlen, hbound⟩ := h
  unfold Config.maxIn at hmax
  have hlast : 4 ≤ s.lastFlush.wlen.toNat ∧ s.lastFlush.wlen.toNat < 2 ^ 25 := by
    unfold State.lastFlush
    split
    · omega
    · rw [State.flush_wlen_toNat (by omega)]
      omega
  exact ⟨hlast.2, fun _ => hlast.1⟩

theorem EngineMove.chainLegal {s t : State} (h : EngineMove s t) (henc : s.EncoderLegal) (hs : s.ChainLegal) :
    t.ChainLegal := by
  obtain ⟨hregion, hbody⟩ := s.chainLegal_iff.1 hs
  cases h with
  | idle => exact hs
  | openArchive tag seed hp hlen hblocks hlz => exact .of_region (State.startChain_regionLegal hblocks hlz) nofun
  | decipherBlock hp hx => exact .of_region ((hregion (.inl hp)).next hx rfl rfl) (by simp [hp])
  | encipherBlock hp hx => exact .of_region ((hregion (.inr hp)).next hx rfl rfl) (by simp [hp])
  | bodyReady hp => exact .of_body (henc.compressLegal hp).body rfl
  | pad hp => exact .of_region (State.padStep_regionLegal (hbody hp)) nofun
  | loadFlags f hp => exact .of_phase (by simp [hp]) (by simp [hp]) (by simp [hp])
  | literal b hp => exact .of_phase (by simp [hp]) (by simp [hp]) (by simp [hp])
  | reference k len disp hp => exact .of_phase (by simp [hp]) (by simp [hp]) (by simp [hp])
  | compressToken hp => exact .of_phase (by simp [hp]) (by simp [hp]) (by simp [hp])
  | _ => exact .of_phase nofun nofun nofun

theorem CommandMove.chainLegal {s t : State} (h : CommandMove s t) : t.ChainLegal := by
  cases h with
  | encodeRaw hmax =>
    unfold Config.maxIn at hmax
    exact .of_body ⟨by show s.inLen.toNat < 2 ^ 25; omega, nofun⟩ rfl
  | encodeStream => exact .of_phase (by simp) (by simp) (by simp)
  | _ => exact .of_phase nofun nofun nofun

theorem HostMove.encoderAndChainLegal {s t : State} {a : HostAction} (h : HostMove s a t)
    (hs : s.EncoderLegal ∧ s.ChainLegal) : t.EncoderLegal ∧ t.ChainLegal := by
  cases h with
  | observe => exact hs
  | command v t hb hn hm => exact ⟨hm.encoderLegal, hm.chainLegal⟩
  | writeInLen => exact hs
  | writeInput => exact hs
  | reset => exact ⟨nofun, .of_phase nofun nofun nofun⟩

/-- Settles O55: the chain's body comes from the encoder, so the two invariants go together. -/
theorem stepKeepsEncoderAndChainLegal : Obligations.StepKeepsEncoderAndChainLegal := by
  intro s t henc hchain
  exact step_preserves (P := fun s => s.EncoderLegal ∧ s.ChainLegal) (fun _ _ h => h)
    (fun _ _ h hs => ⟨h.encoderLegal hs.1, h.chainLegal hs.1 hs.2⟩) (fun _ _ _ => HostMove.encoderAndChainLegal)
    ⟨henc, hchain⟩

/-! ### Reset -/

/-- Settles O50: the block is idle and its memories hold nothing written. -/
theorem resetIsLegal : Obligations.ResetIsLegal :=
  ⟨.inr (.inl ⟨rfl, rfl, rfl, rfl⟩), ⟨rfl, rfl, rfl, rfl, nofun⟩, ⟨trivial, nofun⟩, nofun, nofun,
    .of_phase nofun nofun nofun⟩

end Sys2Proof.Machine
end

section
/-! The end of the deciphering chain: `WORK` goes to the token decoder or is the result (O24). -/

namespace Sys2Proof.Machine

/-! ### The engine's turn, and a successful end -/

/-- With no turn left the engine moves. -/
theorem step_of_no_turns {s : State} (h : s.turns = []) : step s = engineStep s := by
  simp [step, takeTurn, h]

/-- What R255 asks of a successful end, whatever ran before it. -/
theorem State.complete_succeeded (r : Word) (s : State) : (s.complete r).Succeeded r.toNat :=
  ⟨rfl, rfl, by simp [State.busy, statusWord], by simp [State.done, statusWord], by simp [State.err, statusWord], rfl⟩

/-! ### The step of the chain -/

theorem engineStep_of_decipher {s : State} (h : s.phase = .decipher) : engineStep s = .next s.decipherStep := by
  simp [engineStep, h]

theorem State.decipherStep_of_lz {s : State} (hx : s.blen.toNat ≤ s.xp.toNat) (htag : s.tag = Config.tagLz) :
    s.decipherStep = s.startDecoder s.blen := by
  rw [State.decipherStep, if_neg (by omega), if_pos htag]

theorem State.decipherStep_of_raw {s : State} (hx : s.blen.toNat ≤ s.xp.toNat) (htag : s.tag ≠ Config.tagLz) :
    s.decipherStep = s.returnWork := by
  rw [State.decipherStep, if_neg (by omega), if_neg htag]

/-! ### What becomes of the deciphered archive -/

theorem State.startDecoder_decoderCleared (ilen : Word) (s : State) : (s.startDecoder ilen).DecoderCleared :=
  ⟨rfl, rfl, rfl, rfl, rfl⟩

/-- The result of a raw archive is `WORK[0 .. blen)`, byte by byte (R227). -/
theorem State.returnWork_read_out (s : State) {a : Nat} (ha : a < s.blen.toNat) :
    s.returnWork.out.read .out a = s.work.read .work a := by
  rw [State.returnWork, State.complete_out, Memory.read_copyFrom, if_pos (by omega)]
  simp

/-- Settles O24, by the tag, once the step is known to be the last one of the chain. -/
theorem decipheredArchiveIsHandedOver : Obligations.DecipheredArchiveIsHandedOver := by
  intro s hturns hphase hx
  have hstep : step s = .next s.decipherStep := by rw [step_of_no_turns hturns, engineStep_of_decipher hphase]
  constructor
  · intro htag
    rw [State.decipherStep_of_lz hx htag] at hstep
    exact ⟨_, hstep, rfl, rfl, State.startDecoder_decoderCleared _ s, rfl, rfl, rfl⟩
  · intro htag
    rw [State.decipherStep_of_raw hx htag] at hstep
    exact ⟨_, hstep, State.complete_succeeded s.blen _, rfl, fun _ => s.returnWork_read_out⟩

end Sys2Proof.Machine
end

section
/-! Encodings (30_encoding.md): what the decoder answers on each record and token, and what bytes it accepts, in both
directions (O1, O2, O6, O7). -/

namespace Sys2Proof

/-! ### The command word (R115) -/

@[simp] theorem commandWord_op (op : BitVec 3) (mode : BitVec 1) : (commandWord op mode).extractLsb' 0 3 = op := by
  revert op mode; decide

@[simp] theorem commandWord_mode (op : BitVec 3) (mode : BitVec 1) : (commandWord op mode).extractLsb' 8 1 = mode := by
  revert op mode; decide

/-- A command is decoded from the `OP` and `MODE` fields alone (R107). -/
theorem decodeCommand_congr {w x : Word} (hop : w.extractLsb' 0 3 = x.extractLsb' 0 3)
    (hmode : w.extractLsb' 8 1 = x.extractLsb' 8 1) : decodeCommand w = decodeCommand x := by
  simp only [decodeCommand, hop, hmode]

/-- A field survives a mask that is all ones there. -/
theorem extractLsb'_and_of_allOnes {w m : Word} {start len : Nat} (h : m.extractLsb' start len = BitVec.allOnes len) :
    (w &&& m).extractLsb' start len = w.extractLsb' start len := by
  rw [BitVec.extractLsb'_and, h, BitVec.and_allOnes]

/-- Settles O6: the mask 0x107 keeps both fields. -/
theorem commandWordIgnoresOtherBits : Obligations.CommandWordIgnoresOtherBits := fun w =>
  (decodeCommand_congr (w := w &&& 0x107) (x := w) (extractLsb'_and_of_allOnes (by decide))
    (extractLsb'_and_of_allOnes (by decide))).symm

/-- Settles O7, by evaluation of the decoder. -/
theorem writtenOutWordsDecode : Obligations.WrittenOutWordsDecode := by
  unfold Obligations.WrittenOutWordsDecode
  decide

/-- A command is encoded as the word of its two fields, and this word decodes to it. -/
theorem encode_of_command_context {i : Instr} (h : i.context = .command) :
    ∃ op mode, encode i = bytesLE32 (commandWord op mode) ∧ decodeCommand (commandWord op mode) = i := by
  cases i with
  | nop => exact ⟨0, 0, rfl, by simp [decodeCommand]⟩
  | lzDec mode => exact ⟨1, mode, rfl, by simp [decodeCommand]⟩
  | lzEnc mode => exact ⟨2, mode, rfl, by simp [decodeCommand]⟩
  | ctDec mode => exact ⟨3, mode, rfl, by simp [decodeCommand]⟩
  | ctEncRaw => exact ⟨4, 0, rfl, by simp [decodeCommand]⟩
  | ctEncCompressed => exact ⟨4, 1, rfl, by simp [decodeCommand]⟩
  | reservedOp5 mode => exact ⟨5, mode, rfl, by simp [decodeCommand]⟩
  | reservedOp6 mode => exact ⟨6, mode, rfl, by simp [decodeCommand]⟩
  | reservedOp7 mode => exact ⟨7, mode, rfl, by simp [decodeCommand]⟩
  | _ => cases h

/-! ### Back-references (R101 to R104): the decoder's answer by the first byte, and the bytes it was read from -/

theorem hiNibble_eq_iff (b : Byte) (n : BitVec 4) : hiNibble b = n ↔ b.toNat / 16 = n.toNat := by
  rw [BitVec.toNat_eq, hiNibble_toNat]

/-- The high nibbles that select `REF_S`. -/
theorem two_le_toNat_iff (l : BitVec 4) : 2 ≤ l.toNat ↔ l ≠ 0 ∧ l ≠ 1 := by
  revert l; decide

theorem append_loNibble {b : Byte} {n : BitVec 4} (h : hiNibble b = n) : n ++ loNibble b = b :=
  h ▸ hiNibble_append_loNibble b

@[simp] theorem append_extractLsb'_refL (v : BitVec 16) :
    v.extractLsb' 12 4 ++ v.extractLsb' 4 8 ++ v.extractLsb' 0 4 = v := by
  have := v.isLt
  refine BitVec.eq_of_toNat_eq ?_
  simp only [toNat_append_add, BitVec.extractLsb'_toNat, Nat.shiftRight_eq_div_pow]; omega

/-- The three parts of a `REF_L` length field. -/
theorem extractLsb'_append_refL (a : BitVec 4) (b : Byte) (c : BitVec 4) :
    (a ++ b ++ c).extractLsb' 12 4 = a ∧ (a ++ b ++ c).extractLsb' 4 8 = b ∧ (a ++ b ++ c).extractLsb' 0 4 = c := by
  have := a.isLt; have := b.isLt; have := c.isLt
  refine ⟨?_, ?_, ?_⟩ <;> refine BitVec.eq_of_toNat_eq ?_ <;>
    simp only [toNat_append_add, BitVec.extractLsb'_toNat, Nat.shiftRight_eq_div_pow] <;> omega

section
variable {b1 : Byte} (b2 b3 b4 : Byte) (rest : List Byte)

theorem decodeRef_refM (h : hiNibble b1 = 0) :
    decodeRef (b1 :: b2 :: b3 :: rest) = .ok (.refM (loNibble b1 ++ hiNibble b2) (loNibble b2 ++ b3)) 3 :=
  if_pos h

theorem decodeRef_refL (h : hiNibble b1 = 1) :
    decodeRef (b1 :: b2 :: b3 :: b4 :: rest) =
      .ok (.refL (loNibble b1 ++ b2 ++ hiNibble b3) (loNibble b3 ++ b4)) 4 :=
  (if_neg (by rw [h]; decide)).trans (if_pos h)

theorem decodeRef_refS (h : 2 ≤ (hiNibble b1).toNat) :
    decodeRef (b1 :: b2 :: rest) = .ok (.refS (hiNibble b1) (loNibble b1 ++ b2)) 2 := by
  obtain ⟨h0, h1⟩ := (two_le_toNat_iff _).1 h
  exact (if_neg h0).trans (if_neg h1)

theorem encode_refM (h : hiNibble b1 = 0) :
    encode (.refM (loNibble b1 ++ hiNibble b2) (loNibble b2 ++ b3)) = [b1, b2, b3] := by
  simp only [encode, hiNibble_append, loNibble_append, dispHi_append, dispLo_append, hiNibble_append_loNibble,
    append_loNibble h]

theorem encode_refL (h : hiNibble b1 = 1) :
    encode (.refL (loNibble b1 ++ b2 ++ hiNibble b3) (loNibble b3 ++ b4)) = [b1, b2, b3, b4] := by
  obtain ⟨hhi, hmid, hlo⟩ := extractLsb'_append_refL (loNibble b1) b2 (hiNibble b3)
  simp only [encode, hhi, hmid, hlo, dispHi_append, dispLo_append, hiNibble_append_loNibble, append_loNibble h]

theorem encode_refS : encode (.refS (hiNibble b1) (loNibble b1 ++ b2)) = [b1, b2] := by
  simp only [encode, dispHi_append, dispLo_append, hiNibble_append_loNibble]

end

/-! ### Sub-headers (R92, R93) -/

theorem decodeHeader_lzhdr {b1 b2 b3 : Byte} (h : le24 b1 b2 b3 ≠ 0) (rest : List Byte) :
    decodeHeader (Config.lzMagic :: b1 :: b2 :: b3 :: rest) = .ok (.lzhdr (le24 b1 b2 b3)) 4 := by
  unfold decodeHeader
  dsimp only
  rw [if_pos rfl, if_neg h]

/-- A 24-bit size of 0 selects the extended size. -/
theorem decodeHeader_lzhdrx (b4 b5 b6 b7 : Byte) (rest : List Byte) :
    decodeHeader (Config.lzMagic :: 0 :: 0 :: 0 :: b4 :: b5 :: b6 :: b7 :: rest) =
      .ok (.lzhdrx (le32 b4 b5 b6 b7)) 8 := rfl

/-! ### Decoding what was encoded -/

theorem decode_envelope_bytesLE24 (tag : Byte) (seed : BitVec 24) (rest : List Byte) :
    decode .envelope (tag :: bytesLE24 seed ++ rest) = .ok (decodeEnvelope tag seed) 4 := by
  simp [bytesLE24, decode]

theorem encode_length (i : Instr) : (encode i).length = i.length := by
  cases i <;> rfl

theorem decode_command_encode {i : Instr} (h : i.context = .command) (rest : List Byte) :
    decode .command (encode i ++ rest) = .ok i i.length := by
  obtain ⟨op, mode, henc, hdec⟩ := encode_of_command_context h
  have hlength : i.length = 4 := by rw [← encode_length, henc]; rfl
  rw [henc, hlength]
  simp [bytesLE32, decode, hdec]

/-- Settles O1, instruction by instruction: the first byte selects the instruction's form again, and the fields of its bytes are
its operands. -/
theorem decodeOfEncodeIsIdentity : Obligations.DecodeOfEncodeIsIdentity := by
  refine fun i rest hwf => ⟨?_, encode_length i⟩
  cases i with
  | lit data => rfl
  | flags f => rfl
  | refM v d => simp [Instr.context, encode, decode, decodeRef_refM, Instr.length]
  | refL v d => simp [Instr.context, encode, decode, decodeRef_refL, Instr.length]
  | refS l d =>
    have h : 2 ≤ l.toNat := of_decide_eq_true hwf
    simp [Instr.context, encode, decode, decodeRef_refS, h, Instr.length]
  | lzhdr size =>
    have h : size ≠ 0 := of_decide_eq_true hwf
    exact (decodeHeader_lzhdr (by rwa [le24_byteOf]) rest).trans (by rw [le24_byteOf]; rfl)
  | lzhdrx xsize => exact (decodeHeader_lzhdrx _ _ _ _ rest).trans (by rw [le32_byteOf]; rfl)
  | env17 seed => exact decode_envelope_bytesLE24 Config.tagLz seed rest
  | env04 seed => exact decode_envelope_bytesLE24 Config.tagRaw seed rest
  | envUnknown tag seed =>
    obtain ⟨hlz, hraw⟩ : tag ≠ Config.tagLz ∧ tag ≠ Config.tagRaw := of_decide_eq_true hwf
    have hdec : decodeEnvelope tag seed = .envUnknown tag seed := (if_neg hlz).trans (if_neg hraw)
    exact (decode_envelope_bytesLE24 tag seed rest).trans (by rw [hdec]; rfl)
  | _ => exact decode_command_encode rfl rest

/-! ### Encoding what was decoded -/

/-- `bytes` begins with the encoding of the well-formed instruction `i`, and `k` is its length. -/
def StartsWith (bytes : List Byte) (i : Instr) (k : Nat) : Prop :=
  i.wellFormed = true ∧ k = i.length ∧ ∃ rest, bytes = encode i ++ rest

theorem StartsWith.encode_eq_take {bytes : List Byte} {i : Instr} {k : Nat} (h : StartsWith bytes i k) :
    k ≤ bytes.length ∧ encode i = bytes.take k := by
  obtain ⟨-, rfl, rest, rfl⟩ := h
  simp [← encode_length i]

theorem startsWith_of_decodeRef {bytes : List Byte} {i : Instr} {k : Nat} (h : decodeRef bytes = .ok i k) :
    StartsWith bytes i k := by
  unfold decodeRef at h
  split at h
  · cases h
  next b1 rest =>
    split at h
    next h0 =>
      split at h <;> cases h
      next b2 b3 rest => exact ⟨rfl, rfl, rest, by rw [encode_refM _ _ h0]; rfl⟩
    next h0 =>
      split at h
      next h1 =>
        split at h <;> cases h
        next b2 b3 b4 rest => exact ⟨rfl, rfl, rest, by rw [encode_refL _ _ _ h1]; rfl⟩
      next h1 =>
        split at h <;> cases h
        next b2 rest =>
          exact ⟨decide_eq_true ((two_le_toNat_iff _).2 ⟨h0, h1⟩), rfl, rest, by rw [encode_refS]; rfl⟩

theorem startsWith_of_decodeHeader {bytes : List Byte} {i : Instr} {k : Nat} (h : decodeHeader bytes = .ok i k) :
    StartsWith bytes i k := by
  unfold decodeHeader at h
  split at h
  next b0 b1 b2 b3 rest =>
    split at h
    next hmagic =>
      split at h
      next hsize =>
        split at h <;> cases h
        next b4 b5 b6 b7 rest =>
          have hbytes : [b1, b2, b3] = [0, 0, 0] := by rw [← bytesLE24_le24, hsize]; rfl
          cases hbytes
          exact ⟨rfl, rfl, rest, by simp [encode, hmagic]⟩
      next hsize => cases h; exact ⟨decide_eq_true hsize, rfl, rest, by simp [encode, hmagic]⟩
    · cases h
  · cases h

theorem startsWith_decodeEnvelope (b0 b1 b2 b3 : Byte) (rest : List Byte) :
    StartsWith (b0 :: b1 :: b2 :: b3 :: rest) (decodeEnvelope b0 (le24 b1 b2 b3)) 4 := by
  unfold decodeEnvelope
  split
  next hlz => exact ⟨rfl, rfl, rest, by simp [encode, hlz]⟩
  next hlz =>
    split
    next hraw => exact ⟨rfl, rfl, rest, by simp [encode, hraw]⟩
    next hraw => exact ⟨decide_eq_true ⟨hlz, hraw⟩, rfl, rest, by simp [encode]⟩

theorem startsWith_of_decode {c : DecodeContext} {bytes : List Byte} {i : Instr} {k : Nat} (hc : c ≠ .command)
    (h : decode c bytes = .ok i k) : StartsWith bytes i k := by
  unfold decode at h
  split at h
  case h_1 => exact absurd rfl hc
  case h_3 => cases h; exact startsWith_decodeEnvelope ..
  case h_5 => exact startsWith_of_decodeHeader h
  case h_6 b rest => cases h; exact ⟨rfl, rfl, rest, rfl⟩
  case h_8 b rest => cases h; exact ⟨rfl, rfl, rest, rfl⟩
  case h_10 => exact startsWith_of_decodeRef h
  all_goals cases h

/-- Settles O2: accepted bytes start with the encoding of what was decoded. -/
theorem encodeOfDecodeIsIdentity : Obligations.EncodeOfDecodeIsIdentity := by
  intro c bytes i k hc h
  have hstart := startsWith_of_decode hc h
  have htake := hstart.encode_eq_take
  obtain ⟨hwf, hlength, -⟩ := hstart
  exact ⟨hwf, Machine.context_of_decode h, hlength, htake⟩

end Sys2Proof
end

section
/-! The operands of the back-references: the form that a first byte or a length class selects, and the length and displacement it
carries (O3 to O5). -/

namespace Sys2Proof.Machine

/-! ### Operands (R105), as natural numbers -/

theorem lengthS_toNat (l : BitVec 4) : (lengthS l).toNat = l.toNat + 1 := by
  have := l.isLt
  simp [lengthS, Config.biasS]; omega

theorem lengthM_toNat (v : BitVec 8) : (lengthM v).toNat = v.toNat + 0x11 := by
  have := v.isLt
  simp [lengthM, Config.biasM]; omega

theorem lengthL_toNat (v : BitVec 16) : (lengthL v).toNat = v.toNat + 0x111 := by
  have := v.isLt
  simp [lengthL, Config.biasL]; omega

theorem displacement_toNat (d : BitVec 12) : (displacement d).toNat = d.toNat + 1 := by
  have := d.isLt
  simp [displacement, Config.dispBias]; omega

/-- Settles O3, by the high nibble that each range of first bytes has. -/
theorem firstByteSelectsForm : Obligations.FirstByteSelectsForm := by
  intro b1 b2 b3 b4
  refine ⟨fun hmax => ?_, fun hmin hmax => ?_, fun hmin => ?_, rfl⟩
  · have h : hiNibble b1 = 0 := (hiNibble_eq_iff b1 0).2 (by simp; omega)
    refine ⟨_, _, decodeRef_refM b2 b3 [b4] h, ?_, ?_, ?_⟩
    · rw [toNat_append_add, loNibble_toNat, hiNibble_toNat]; omega
    all_goals rw [lengthM_toNat]; omega
  · have h : hiNibble b1 = 1 := (hiNibble_eq_iff b1 1).2 (by simp; omega)
    refine ⟨_, _, decodeRef_refL b2 b3 b4 [] h, ?_, ?_, ?_⟩
    · rw [toNat_append_add, toNat_append_add, loNibble_toNat, hiNibble_toNat]; omega
    all_goals rw [lengthL_toNat]; omega
  · have h : 2 ≤ (hiNibble b1).toNat := by rw [hiNibble_toNat]; omega
    exact ⟨_, _, decodeRef_refS b2 [b3, b4] h, by rw [lengthS_toNat, hiNibble_toNat]⟩

/-! ### The formulas of R101 to R103 on the bytes of a token -/

theorem hiNibble_toNat_shift (b : Byte) : (hiNibble b).toNat = b.toNat >>> 4 := by
  rw [hiNibble_toNat, Nat.shiftRight_eq_div_pow]

theorem loNibble_toNat_and (b : Byte) : (loNibble b).toNat = b.toNat &&& 0xF := by
  rw [loNibble_toNat]; exact (Nat.and_two_pow_sub_one_eq_mod b.toNat 4).symm

/-- The displacement that the last two bytes of a token hold. -/
theorem displacement_append_toNat (a b : Byte) :
    (displacement (loNibble a ++ b)).toNat = ((a.toNat &&& 0xF) <<< 8 ||| b.toNat) + 1 := by
  rw [displacement_toNat, BitVec.toNat_append, loNibble_toNat_and]

theorem refS_fields {l : BitVec 4} {d : BitVec 12} {b1 b2 : Byte} (h : encode (.refS l d) = [b1, b2]) :
    l = hiNibble b1 ∧ d = loNibble b1 ++ b2 := by
  cases h
  exact ⟨(hiNibble_append ..).symm, by rw [loNibble_append, dispHi_append_dispLo]⟩

theorem refM_fields {v : BitVec 8} {d : BitVec 12} {b1 b2 b3 : Byte} (h : encode (.refM v d) = [b1, b2, b3]) :
    v = loNibble b1 ++ hiNibble b2 ∧ d = loNibble b2 ++ b3 := by
  cases h
  exact ⟨by rw [loNibble_append, hiNibble_append, hiNibble_append_loNibble],
    by rw [loNibble_append, dispHi_append_dispLo]⟩

theorem refL_fields {v : BitVec 16} {d : BitVec 12} {b1 b2 b3 b4 : Byte}
    (h : encode (.refL v d) = [b1, b2, b3, b4]) :
    v = loNibble b1 ++ b2 ++ hiNibble b3 ∧ d = loNibble b3 ++ b4 := by
  cases h
  exact ⟨by rw [loNibble_append, hiNibble_append, append_extractLsb'_refL],
    by rw [loNibble_append, dispHi_append_dispLo]⟩

/-- Settles O4: the token's bytes are the encoding of its fields (O2), so the fields are those of the bytes. -/
theorem operandFormulas : Obligations.OperandFormulas := by
  intro b1 b2 b3 b4
  refine ⟨fun l d h => ?_, fun v d h => ?_, fun v d h => ?_⟩ <;>
    obtain ⟨-, -, -, -, henc⟩ := encodeOfDecodeIsIdentity (.token true) _ _ _ nofun h
  · obtain ⟨rfl, rfl⟩ := refS_fields henc
    exact ⟨by rw [lengthS_toNat, hiNibble_toNat_shift], displacement_append_toNat b1 b2⟩
  · obtain ⟨rfl, rfl⟩ := refM_fields henc
    refine ⟨?_, displacement_append_toNat b2 b3⟩
    rw [lengthM_toNat, BitVec.toNat_append, loNibble_toNat_and, hiNibble_toNat_shift]
  · obtain ⟨rfl, rfl⟩ := refL_fields henc
    refine ⟨?_, displacement_append_toNat b3 b4⟩
    rw [lengthL_toNat, BitVec.toNat_append, BitVec.toNat_append, loNibble_toNat_and, hiNibble_toNat_shift,
      Nat.shiftLeft_or_distrib, ← Nat.shiftLeft_add]

/-! ### The encoder's choice of form (R106, R185) -/

theorem displacement_displacementField {disp : BitVec 13} (hmin : 1 ≤ disp.toNat) (hmax : disp.toNat ≤ 4096) :
    displacement (displacementField disp) = disp := by
  simp only [displacement, displacementField, Config.dispBias]
  bv_omega

theorem refToken_large {len : BitVec 17} (disp : BitVec 13) (h : Config.maxM < len.toNat) :
    refToken len disp = .refL ((len - BitVec.ofNat 17 Config.biasL).setWidth 16) (displacementField disp) := by
  rw [refToken, if_pos h]

theorem refToken_medium {len : BitVec 17} (disp : BitVec 13) (h : Config.maxS < len.toNat) (hmax : len.toNat ≤ Config.maxM) :
    refToken len disp = .refM ((len - BitVec.ofNat 17 Config.biasM).setWidth 8) (displacementField disp) := by
  rw [refToken, if_neg (Nat.not_lt.2 hmax), if_pos h]

theorem refToken_small {len : BitVec 17} (disp : BitVec 13) (h : len.toNat ≤ Config.maxS) :
    refToken len disp = .refS ((len - BitVec.ofNat 17 Config.biasS).setWidth 4) (displacementField disp) := by
  rw [refToken, if_neg (Nat.not_lt.2 (h.trans (by decide))), if_neg (Nat.not_lt.2 h)]

theorem lengthL_sub_bias {len : BitVec 17} (hmin : 0x110 < len.toNat) (hmax : len.toNat ≤ 65808) :
    lengthL ((len - BitVec.ofNat 17 Config.biasL).setWidth 16) = len := by
  simp only [lengthL, Config.biasL]
  bv_omega

theorem lengthM_sub_bias {len : BitVec 17} (hmin : 0x10 < len.toNat) (hmax : len.toNat ≤ 0x110) :
    lengthM ((len - BitVec.ofNat 17 Config.biasM).setWidth 8) = len := by
  simp only [lengthM, Config.biasM]
  bv_omega

theorem lengthS_sub_bias {len : BitVec 17} (hmin : 1 ≤ len.toNat) (hmax : len.toNat ≤ 0x10) :
    lengthS ((len - BitVec.ofNat 17 Config.biasS).setWidth 4) = len := by
  simp only [lengthS, Config.biasS]
  bv_omega

theorem refToken_wellFormed {len : BitVec 17} (disp : BitVec 13) (h : 3 ≤ len.toNat) :
    (refToken len disp).wellFormed = true := by
  rcases Nat.lt_or_ge 0x110 len.toNat with hlarge | hmax
  · rw [refToken_large disp hlarge]; rfl
  rcases Nat.lt_or_ge 0x10 len.toNat with hmedium | hsmall
  · rw [refToken_medium disp hmedium hmax]; rfl
  · have hlen := congrArg BitVec.toNat (lengthS_sub_bias (by omega) hsmall)
    rw [lengthS_toNat] at hlen
    rw [refToken_small disp hsmall]
    exact decide_eq_true (by omega)

/-- Settles O5, by length class: each bias is taken off and put back without overflow. -/
theorem lengthClassChoosesForm : Obligations.LengthClassChoosesForm := by
  intro len disp hmin hmax hdmin hdmax
  have hdisp := displacement_displacementField hdmin hdmax
  exact ⟨refToken_wellFormed disp hmin,
    fun h => ⟨_, _, refToken_large disp h, lengthL_sub_bias h hmax, hdisp⟩,
    fun h hm => ⟨_, _, refToken_medium disp h hm, lengthM_sub_bias h hm, hdisp⟩,
    fun h => ⟨_, _, refToken_small disp h, lengthS_sub_bias (by omega) h, hdisp⟩⟩

end Sys2Proof.Machine
end

section
/-! The flag byte and the sub-headers, run with all their bytes there (O10, O17). -/

namespace Sys2Proof.Machine

theorem State.requireBytes_of_avail {k : Nat} (f : State → State) {s : State} (h : k ≤ s.avail) :
    s.requireBytes k f = f s :=
  if_neg (Nat.not_lt.2 h)

/-- Settles O10: the byte is there, so `FLAGS` loads it and advances. -/
theorem flagByteStartsGroup : Obligations.FlagByteStartsGroup := fun _ _ ha =>
  ⟨_, congrArg Host.Outcome.next (State.requireBytes_of_avail _ ha), rfl, rfl, rfl, rfl⟩

theorem State.declareSize_of_ilen {k : Nat} (size : Word) {s : State} (h : k ≤ s.ilen.toNat) :
    s.declareSize k size = { s.decoderInit.advance k with size := size, phase := .tokens } :=
  State.requireBytes_of_avail _ (by simpa [State.avail] using h)

/-- Settles O17: both forms declare their size once their bytes are there. -/
theorem headerDeclaresSize : Obligations.HeaderDeclaresSize := by
  refine fun s => ⟨fun size h => ?_, fun xsize h => ?_⟩
  · have hsize : (size.setWidth 32).toNat = size.toNat := by have := size.isLt; simp; omega
    exact ⟨_, congrArg Host.Outcome.next (State.declareSize_of_ilen _ h), rfl, rfl, hsize, rfl, rfl, rfl, rfl, rfl⟩
  · exact ⟨_, congrArg Host.Outcome.next (State.declareSize_of_ilen _ h), rfl, rfl, rfl, rfl, rfl, rfl, rfl, rfl⟩

end Sys2Proof.Machine
end

section
/-! Every running command ends (O56): each move of a running engine goes on to a later phase of its command, or leaves less to do
in the present one. -/

namespace Sys2Proof.Machine

/-! ### What is left of a command -/

/-- How many phases can follow before the engine is idle (R251 to R254). -/
def Phase.remaining : Phase → Nat
  | .idle => 0
  | .tokens => 1
  | .header => 2
  | .decipher => 3
  | .envelope => 4
  | .encipher => 1
  | .pad => 2
  | .compress => 3

/-- What the loop of the present phase has left: twice the output bytes, and one more when a flag byte is due before the next of
them (R132, R133); the bytes of the chain (R203, R206); the bytes of the input (R182). -/
def State.pending (s : State) : Nat :=
  match s.phase with
  | .tokens => 2 * (s.size.toNat - s.olen.toNat) + (if s.mask = 0 then 1 else 0)
  | .decipher | .encipher => s.blen.toNat - s.xp.toNat
  | .compress => s.n.toNat - s.pos.toNat
  | .idle | .envelope | .header | .pad => 0

/-- The measure of termination: the phases that are left, then what is left of the present one. -/
def State.distance (s : State) : ℕ ×ₗ ℕ := toLex (s.phase.remaining, s.pending)

theorem State.distance_lt_of_phase {s t : State} {p : Phase} (q : Phase) (hp : s.phase = p) (hq : t.phase = q)
    (h : q.remaining < p.remaining) : t.distance < s.distance := by
  subst hp hq
  exact Prod.Lex.toLex_lt_toLex.2 (.inl h)

theorem Phase.remaining_pos {p : Phase} (h : p ≠ .idle) : 0 < p.remaining := by
  cases p <;> simp [Phase.remaining] at h ⊢

/-- An idle block is nearer to the end than any running one. -/
theorem State.distance_lt_of_idle {s t : State} (hs : s.phase ≠ .idle) (ht : t.phase = .idle) :
    t.distance < s.distance :=
  State.distance_lt_of_phase .idle rfl ht (Phase.remaining_pos hs)

theorem State.distance_lt_of_pending {s t : State} (hp : t.phase = s.phase) (h : t.pending < s.pending) :
    t.distance < s.distance :=
  Prod.Lex.toLex_lt_toLex.2 (.inr ⟨congrArg Phase.remaining hp, h⟩)

/-! ### The loops -/

/-- A token that adds to the output brings the end nearer even if it uses up the flag byte. -/
theorem State.distance_lt_of_produced {s t : State} (hp : s.phase = .tokens) (ht : t.phase = .tokens)
    (hsize : t.size = s.size) (hroom : s.olen.toNat < s.size.toNat) (holen : s.olen.toNat < t.olen.toNat) :
    t.distance < s.distance := by
  refine State.distance_lt_of_pending (ht.trans hp.symm) ?_
  simp only [State.pending, hp, ht, hsize]
  split <;> split <;> omega

theorem State.loadFlags_distance_lt {s : State} (hp : s.phase = .tokens) (hm : s.mask = 0) (f : Byte) :
    ((s.loadFlags f).advance 1).distance < s.distance := by
  refine State.distance_lt_of_pending rfl ?_
  simp [State.pending, hp, hm]

/-- The next block of a chain does not pass the end of its region. -/
theorem State.distance_lt_of_block {s t : State} (hs : s.RegionLegal) (hp : s.phase = .decipher ∨ s.phase = .encipher)
    (hphase : t.phase = s.phase) (hxp : t.xp = s.xp + 4) (hblen : t.blen = s.blen) (hx : s.xp.toNat < s.blen.toNat) :
    t.distance < s.distance := by
  obtain ⟨hxmod, hbmod, -⟩ := hs
  have hb := s.blen.isLt
  have hxp' : t.xp.toNat = s.xp.toNat + 4 := by rw [hxp, BitVec.toNat_add]; simp; omega
  refine State.distance_lt_of_pending hphase ?_
  rcases hp with hp | hp <;> simp only [State.pending, hphase, hp, hblen, hxp'] <;> omega

/-- A token of the encoder stands for at least one byte of the input (R184, R185). -/
theorem State.lt_emitToken_pos {s : State} (hpos : s.pos.toNat < s.n.toNat)
    (hmlen : s.mlen.toNat ≤ s.n.toNat - s.pos.toNat) : s.pos.toNat < s.emitToken.pos.toNat := by
  have hn := s.n.isLt
  rcases Nat.lt_or_ge s.mlen.toNat 3 with hshort | hmatch
  · rw [State.emitToken_of_short hshort, State.account_pos, BitVec.toNat_add]; simp; omega
  · rw [State.emitToken_of_match hmatch, State.account_pos, BitVec.toNat_add, BitVec.toNat_setWidth]; omega

theorem State.detect_emitToken_distance_lt {s : State} (hp : s.phase = .compress) (hpos : s.pos.toNat < s.n.toNat) :
    s.detect.emitToken.distance < s.distance := by
  have hlt : s.pos.toNat < s.detect.emitToken.pos.toNat := by
    simpa using State.lt_emitToken_pos (s := s.detect) (by simpa using hpos) (by simpa using s.detect_mlen_le)
  refine State.distance_lt_of_pending s.detect_emitToken_phase ?_
  simp only [State.pending, State.detect_emitToken_phase, State.detect_emitToken_n, hp]
  omega

/-! ### The end of a run -/

/-- Every move of a running engine brings the end nearer. -/
theorem EngineMove.distance_lt {s t : State} (h : EngineMove s t) (hrun : s.phase ≠ .idle) (hchain : s.ChainLegal) :
    t.distance < s.distance := by
  obtain ⟨hregion, -⟩ := s.chainLegal_iff.1 hchain
  cases h with
  | idle hp => exact absurd hp hrun
  | decipherBlock hp hx => exact State.distance_lt_of_block (hregion (.inl hp)) (.inl hp) rfl rfl rfl hx
  | encipherBlock hp hx => exact State.distance_lt_of_block (hregion (.inr hp)) (.inr hp) rfl rfl rfl hx
  | loadFlags f hp hsize hm => exact State.loadFlags_distance_lt hp hm f
  | literal b hp hsize =>
    have hlt := s.size.isLt
    refine State.distance_lt_of_produced hp hp rfl hsize ?_
    rw [State.produce_olen, BitVec.toNat_add]
    simp; omega
  | reference k len disp hp hsize hm ha hd hl =>
    refine State.distance_lt_of_produced hp (by simpa using hp) (by simp) hsize ?_
    rw [State.copyBytes_olen _ _ (by simpa using hsize.le)]
    simp; omega
  | compressToken hp hpos => exact State.detect_emitToken_distance_lt hp hpos
  | openArchive tag seed hp => exact State.distance_lt_of_phase .decipher hp rfl (by decide)
  | handOver hp => exact State.distance_lt_of_phase .header hp rfl (by decide)
  | declareSize k size hp => exact State.distance_lt_of_phase .tokens hp rfl (by decide)
  | bodyReady hp => exact State.distance_lt_of_phase .pad hp rfl (by decide)
  | pad hp => exact State.distance_lt_of_phase .encipher hp rfl (by decide)
  | _ => exact State.distance_lt_of_idle hrun rfl

theorem State.EndOfRun.done {t : State} (h : t.EndOfRun) : t.done = true := by
  rcases h with ⟨u, r, rfl⟩ | ⟨u, e, rfl, -⟩ <;> simp [State.done, statusWord]

/-- A running engine goes idle only by ending its command. -/
theorem EngineMove.endOfRun {s t : State} (h : EngineMove s t) (hrun : s.phase ≠ .idle) (ht : t.phase = .idle) :
    t.EndOfRun := by
  rcases h.report with ⟨hp, -⟩ | ⟨-, ⟨-, -, -, hruns⟩ | hend⟩
  · exact absurd hp hrun
  · exact absurd ht (hruns hrun)
  · exact hend

theorem RunsTo.of_step {s t u : State} (h : engineStep s = .next t) (hu : RunsTo t u) : RunsTo s u := by
  obtain ⟨hidle, k, hk⟩ := hu
  exact ⟨hidle, k + 1, by simpa only [engineRun, h] using hk⟩

theorem RunsTo.refl {t : State} (h : t.phase = .idle) : RunsTo t t := ⟨h, 0, rfl⟩

/-- A running command ends in a completion (R255, R280), by induction on the distance to it. -/
theorem exists_runsTo_endOfRun (s : State) (henc : s.EncoderLegal) (hchain : s.ChainLegal) (hrun : s.phase ≠ .idle) :
    ∃ t, RunsTo s t ∧ t.EndOfRun := by
  obtain ⟨t, ht⟩ := engineStep_next s
  have hmove := engineStep_move ht
  by_cases hidle : t.phase = .idle
  · exact ⟨t, .of_step ht (.refl hidle), hmove.endOfRun hrun hidle⟩
  · have hnearer : t.distance < s.distance := hmove.distance_lt hrun hchain
    obtain ⟨u, hu, hend⟩ := exists_runsTo_endOfRun t (hmove.encoderLegal henc) (hmove.chainLegal henc hchain) hidle
    exact ⟨u, .of_step ht hu, hend⟩
termination_by s.distance
decreasing_by exact hnearer

/-- Settles O56: the completion that ends the run has a legal report with `DONE` set. -/
theorem everyCommandEnds : Obligations.EveryCommandEnds := by
  intro s _ _ henc hchain hrun
  obtain ⟨t, ht, hend⟩ := exists_runsTo_endOfRun s henc hchain hrun
  exact ⟨t, ht, hend.statusLegal, hend.done⟩

end Sys2Proof.Machine
end

section
/-! What a step of the decoder runs (O8), and how it ends a command: at the declared size (O19), and with the errors of the
sub-header, of the tokens and of their displacements (O14 to O16, O18). -/

namespace Sys2Proof.Machine

/-! ### The step, phase by phase -/

section
variable {s : State}

theorem engineStep_of_envelope (h : s.phase = .envelope) :
    engineStep s = s.runDecoded .invalidArchive (decode .envelope s.archiveWindow) := by
  simp [engineStep, h]

theorem engineStep_of_header (h : s.phase = .header) :
    engineStep s = s.runDecoded .streamTooShort (decode .header s.decoderInit.streamWindow) := by
  simp [engineStep, h]

theorem engineStep_of_tokens (h : s.phase = .tokens) : engineStep s = s.tokenStep := by
  simp [engineStep, h]

theorem State.tokenStep_of_end (h : s.size.toNat ≤ s.olen.toNat) : s.tokenStep = .next (s.complete s.size) :=
  if_pos h

theorem State.tokenStep_of_flags (h : s.olen.toNat < s.size.toNat) (hm : s.mask = 0) :
    s.tokenStep = s.runDecoded .streamTooShort (decode .flags s.streamWindow) :=
  (if_neg (Nat.not_le.2 h)).trans (if_pos hm)

theorem State.tokenStep_of_token (h : s.olen.toNat < s.size.toNat) (hm : s.mask ≠ 0) :
    s.tokenStep = s.classified.runDecoded .streamTooShort (decode (.token s.isRef) s.streamWindow) :=
  (if_neg (Nat.not_le.2 h)).trans (if_neg hm)

theorem State.isRef_eq_true_iff : s.isRef = true ↔ s.flags &&& s.mask ≠ 0 := decide_eq_true_iff

end

/-- Settles O8, phase by phase: what runs is the instruction that was decoded. -/
theorem stepRunsFetchedRecord : Obligations.StepRunsFetchedRecord := by
  intro s i k hturns
  rw [step_of_no_turns hturns]
  refine ⟨fun hp hs hm hd => ?_, fun hp hs hm hd => ?_, fun hp hd => ?_, fun hp hd => ?_⟩
  · rw [engineStep_of_tokens hp, State.tokenStep_of_flags hs hm, hd]; rfl
  · rw [engineStep_of_tokens hp, State.tokenStep_of_token hs hm, State.isRef, hd]; rfl
  · rw [engineStep_of_header hp, hd]; rfl
  · rw [engineStep_of_envelope hp, hd]; rfl

/-- Settles O19: the output has the declared size, so the step is the completion. -/
theorem decodingEndsAtDeclaredSize : Obligations.DecodingEndsAtDeclaredSize := by
  intro s hturns hp hsize
  have hstep : step s = .next (s.complete s.size) := by
    rw [step_of_no_turns hturns, engineStep_of_tokens hp, State.tokenStep_of_end (congrArg BitVec.toNat hsize.symm).le]
  exact ⟨_, hstep, State.complete_succeeded s.size s, rfl⟩

/-! ### The end with an error (R280) -/

/-- `raise` ends the command of any state with the same `IN` and `IN_LEN`. -/
theorem State.raise_endedBy (e : ErrorKind) {s u : State} (hlen : u.inLen = s.inLen) (hinp : u.inp = s.inp) :
    s.EndedBy e (u.raise e) :=
  ⟨ErrorKind.code_setWidth_toNat e, rfl, by simp [State.busy, statusWord], by simp [State.done, statusWord],
    by simp [State.err, statusWord], rfl, hlen, hinp⟩

theorem State.requireBytes_of_short {k : Nat} (f : State → State) {s : State} (h : s.avail < k) :
    s.requireBytes k f = s.raise .streamTooShort :=
  if_pos h

/-- Settles O14: each of the five tests for its bytes before anything else. -/
theorem missingTokenBytesRaise : Obligations.MissingTokenBytesRaise := by
  intro i s hi ha
  have hraise (f : State → State) : s.EndedBy .streamTooShort (s.requireBytes i.length f) := by
    rw [State.requireBytes_of_short f ha]
    exact State.raise_endedBy _ rfl rfl
  have hform : (∃ f, i = .flags f) ∨ (∃ b, i = .lit b) ∨ (∃ l d, i = .refS l d) ∨ (∃ v d, i = .refM v d) ∨
      ∃ v d, i = .refL v d := by
    rcases hi with hi | hi | hi
    · exact .inl (Instr.of_flags_context hi)
    · exact .inr (Instr.of_token_context hi)
    · exact .inr (Instr.of_token_context hi)
  rcases hform with ⟨f, rfl⟩ | ⟨b, rfl⟩ | ⟨l, d, rfl⟩ | ⟨v, d, rfl⟩ | ⟨v, d, rfl⟩ <;> exact ⟨_, rfl, hraise _⟩

theorem State.backReference_of_beyond {k : Nat} {disp : BitVec 13} {s : State} (len : BitVec 17) (ha : k ≤ s.avail)
    (hd : s.olen.toNat < disp.toNat) :
    s.backReference k len disp = ((s.advance k).setOperands len disp).raise .invalidData :=
  (State.requireBytes_of_avail _ ha).trans (if_pos hd)

/-- Settles O16: with its bytes there, each form tests its displacement next. -/
theorem displacementBeyondOutputRaises : Obligations.DisplacementBeyondOutputRaises := by
  intro s d hd
  have hraise {k : Nat} (len : BitVec 17) (ha : k ≤ s.avail) :
      s.EndedBy .invalidData (s.backReference k len (displacement d)) := by
    rw [State.backReference_of_beyond len ha hd]
    exact State.raise_endedBy _ rfl rfl
  exact ⟨fun l ha => ⟨_, rfl, hraise _ ha⟩, fun v ha => ⟨_, rfl, hraise _ ha⟩, fun v ha => ⟨_, rfl, hraise _ ha⟩⟩

/-! ### The bytes that the decoder sees (R23, R90) -/

@[simp] theorem State.streamWindow_length (s : State) : s.streamWindow.length = min 8 s.avail := by
  simp [State.streamWindow]

/-- With `k` bytes left the window begins with the next `k` bytes of the stream. -/
theorem State.streamWindow_eq_append {s : State} {k : Nat} (hk : k ≤ 8) (ha : k ≤ s.avail) :
    ∃ rest, s.streamWindow = (List.range k).map (fun i => s.streamByte (s.ip.toNat + i)) ++ rest := by
  obtain ⟨m, hm⟩ := Nat.exists_eq_add_of_le (le_min hk ha)
  exact ⟨_, by rw [State.streamWindow, hm, List.range_add, List.map_append]⟩

/-! ### A stream that ends inside a token (R133 to R135) -/

/-- The length of the back-reference that the first byte `b` selects (R104). -/
def refLength (b : Byte) : Nat := if b.toNat / 16 = 0 then 3 else if b.toNat / 16 = 1 then 4 else 2

theorem refLength_eq (b : Byte) : refLength b = if hiNibble b = 0 then 3 else if hiNibble b = 1 then 4 else 2 := by
  simp [refLength, hiNibble_eq_iff]

theorem decodeRef_short {b : Byte} {rest : List Byte} (h : rest.length + 1 < refLength b) :
    decodeRef (b :: rest) = .reject .short := by
  by_cases h0 : hiNibble b = 0
  · rw [refLength_eq, if_pos h0] at h
    match rest, h with
    | [], _ => exact if_pos h0
    | [_], _ => exact if_pos h0
  by_cases h1 : hiNibble b = 1
  · rw [refLength_eq, if_neg h0, if_pos h1] at h
    match rest, h with
    | [], _ => exact (if_neg h0).trans (if_pos h1)
    | [_], _ => exact (if_neg h0).trans (if_pos h1)
    | [_, _], _ => exact (if_neg h0).trans (if_pos h1)
  · rw [refLength_eq, if_neg h0, if_neg h1] at h
    match rest, h with
    | [], _ => exact (if_neg h0).trans (if_neg h1)

/-- Settles O15: the window is empty, or holds less than its first byte asks for. -/
theorem streamEndsInsideTokens : Obligations.StreamEndsInsideTokens := by
  intro s hturns hp hs
  rw [step_of_no_turns hturns, engineStep_of_tokens hp]
  constructor
  · intro ha
    have hempty : s.streamWindow = [] := List.eq_nil_of_length_eq_zero (by simp [ha])
    by_cases hm : s.mask = 0
    · rw [State.tokenStep_of_flags hs hm, hempty]
      exact ⟨_, rfl, State.raise_endedBy _ rfl rfl⟩
    · rw [State.tokenStep_of_token hs hm, hempty]
      cases s.isRef <;> exact ⟨_, rfl, State.raise_endedBy _ rfl rfl⟩
  · intro ha hm hf byte1 hshort
    obtain ⟨rest, hrest⟩ := State.streamWindow_eq_append (s := s) (k := 1) (by decide) ha
    have hwindow : s.streamWindow = s.streamByte s.ip.toNat :: rest := hrest
    have hlength := s.streamWindow_length
    rw [hwindow, List.length_cons] at hlength
    have hdecode : decode (.token true) s.streamWindow = .reject .short := by
      rw [hwindow]
      refine decodeRef_short (lt_of_le_of_lt ?_ hshort)
      omega
    rw [State.tokenStep_of_token hs hm, State.isRef_eq_true_iff.2 hf, hdecode]
    exact ⟨_, rfl, State.raise_endedBy _ rfl rfl⟩

/-! ### A sub-header that is short or wrong (R130, R131) -/

theorem decodeHeader_short {bytes : List Byte} (h : bytes.length < 4) : decodeHeader bytes = .reject .short := by
  unfold decodeHeader
  split
  · simp at h; omega
  · rfl

theorem decodeHeader_badMagic {b0 : Byte} (h : b0 ≠ Config.lzMagic) (b1 b2 b3 : Byte) (rest : List Byte) :
    decodeHeader (b0 :: b1 :: b2 :: b3 :: rest) = .reject .badMagic :=
  if_neg h

/-- A 24-bit size of 0 asks for 8 bytes. -/
theorem decodeHeader_extended_short {rest : List Byte} (h : rest.length < 4) :
    decodeHeader (Config.lzMagic :: 0 :: 0 :: 0 :: rest) = .reject .short := by
  match rest, h with
  | [], _ => rfl
  | [_], _ => rfl
  | [_, _], _ => rfl
  | [_, _, _], _ => rfl

/-- Settles O18, in the order of the decoder's tests. -/
theorem headerErrorsInOrder : Obligations.HeaderErrorsInOrder := by
  intro s hturns hp
  rw [step_of_no_turns hturns, engineStep_of_header hp]
  have havail : s.decoderInit.avail = s.ilen.toNat := by simp [State.avail]
  have hlength := s.decoderInit.streamWindow_length
  rw [havail] at hlength
  have hfour (h : 4 ≤ s.ilen.toNat) : ∃ rest, s.decoderInit.streamWindow =
      s.streamByte 0 :: s.streamByte 1 :: s.streamByte 2 :: s.streamByte 3 :: rest :=
    State.streamWindow_eq_append (by decide) (havail ▸ h)
  refine ⟨fun h => ?_, fun h hmagic => ?_, fun h hshort h0 h1 h2 h3 => ?_⟩
  · have hdecode : decode .header s.decoderInit.streamWindow = .reject .short := decodeHeader_short (by omega)
    rw [hdecode]
    exact ⟨_, rfl, State.raise_endedBy _ rfl rfl⟩
  · obtain ⟨rest, hwindow⟩ := hfour h
    have hdecode : decode .header s.decoderInit.streamWindow = .reject .badMagic := by
      rw [hwindow]; exact decodeHeader_badMagic hmagic _ _ _ rest
    rw [hdecode]
    exact ⟨_, rfl, State.raise_endedBy _ rfl rfl⟩
  · obtain ⟨rest, hwindow⟩ := hfour h
    rw [hwindow] at hlength
    simp only [List.length_cons] at hlength
    have hdecode : decode .header s.decoderInit.streamWindow = .reject .short := by
      rw [hwindow, h0, h1, h2, h3]; exact decodeHeader_extended_short (by omega)
    rw [hdecode]
    exact ⟨_, rfl, State.raise_endedBy _ rfl rfl⟩

end Sys2Proof.Machine
end

section
/-! The literal (O11) and the copy of a back-reference: what it writes and where (O12), and that it repeats the pattern that lies
`disp` bytes back (O13). -/

namespace Sys2Proof.Machine

/-- Settles O11: the byte is there, so it goes to `OUT` at `olen` and to `HIST` at `wp`. -/
theorem literalAppendsOneByte : Obligations.LiteralAppendsOneByte := by
  intro b s ha
  have hwp : (s.wp + 1).toNat = (s.wp.toNat + 1) % 4096 := by simp [BitVec.toNat_add]
  exact ⟨_, congrArg Host.Outcome.next (State.requireBytes_of_avail _ ha), rfl, rfl, rfl, hwp,
    Memory.read_write_self .out s.out _ b, fun a hne => Memory.read_write_other .out s.out b hne,
    Memory.read_write_self .hist s.hist _ b, fun a hne => Memory.read_write_other .hist s.hist b hne⟩

/-! ### The copy, byte by byte (R140) -/

/-- One iteration of the copy. -/
def State.copyByte (s : State) : State := s.produce s.historyByte

/-- How many bytes a copy of length `k` makes: it ends at the declared size (R145). -/
def State.copyCount (k : Nat) (s : State) : Nat := min k (s.size.toNat - s.olen.toNat)

theorem State.copyByte_olen_toNat {s : State} (h : s.olen.toNat < s.size.toNat) :
    s.copyByte.olen.toNat = s.olen.toNat + 1 := by
  have := s.size.isLt
  simp [State.copyByte, BitVec.toNat_add]; omega

/-- The copy is that many iterations. -/
theorem State.copyBytes_eq_iterate (k : Nat) (s : State) : s.copyBytes k = State.copyByte^[s.copyCount k] s := by
  induction k generalizing s with
  | zero => simp [State.copyBytes, State.copyCount]
  | succ k ih =>
    unfold State.copyBytes
    split
    next h =>
      have hsize : s.copyByte.size = s.size := rfl
      have hcount : s.copyCount (k + 1) = s.copyByte.copyCount k + 1 := by
        unfold State.copyCount
        rw [State.copyByte_olen_toNat h, hsize]
        omega
      rw [hcount, Function.iterate_succ_apply]
      exact ih s.copyByte
    next h =>
      have hcount : s.copyCount (k + 1) = 0 := by unfold State.copyCount; omega
      rw [hcount]
      rfl

section
variable {s : State} (j : Nat)

theorem State.iterate_copyByte_olen (h : s.olen.toNat + j < 2 ^ 32) :
    (State.copyByte^[j] s).olen.toNat = s.olen.toNat + j := by
  induction j with
  | zero => rfl
  | succ j ih =>
    rw [Function.iterate_succ_apply', State.copyByte, State.produce_olen, BitVec.toNat_add, ih (by omega)]
    simp; omega

theorem State.iterate_copyByte_wp : (State.copyByte^[j] s).wp.toNat = (s.wp.toNat + j) % 4096 := by
  induction j with
  | zero => exact (Nat.mod_eq_of_lt s.wp.isLt).symm
  | succ j ih =>
    rw [Function.iterate_succ_apply', State.copyByte, State.produce_wp, BitVec.toNat_add, ih]
    simp; omega

theorem State.iterate_copyByte_disp : (State.copyByte^[j] s).disp = s.disp := by
  induction j with
  | zero => rfl
  | succ j ih => rw [Function.iterate_succ_apply']; exact ih

/-- `OUT` changes only from `olen` on, by as many bytes as are copied. -/
theorem State.iterate_copyByte_out (h : s.olen.toNat + j < 2 ^ 32) {a : Nat}
    (ha : a < s.olen.toNat ∨ s.olen.toNat + j ≤ a) :
    (State.copyByte^[j] s).out.read .out a = s.out.read .out a := by
  induction j with
  | zero => rfl
  | succ j ih =>
    have holen := State.iterate_copyByte_olen (s := s) j (by omega)
    rw [Function.iterate_succ_apply', State.copyByte, State.produce_out, Memory.read_write_other _ _ _ (by omega)]
    exact ih (by omega) (by omega)

/-- `HIST` changes only from `wp` on, modulo 4096, by as many bytes as are copied. -/
theorem State.iterate_copyByte_hist {a : Nat} (ha : ∀ i, i < j → a ≠ (s.wp.toNat + i) % 4096) :
    (State.copyByte^[j] s).hist.read .hist a = s.hist.read .hist a := by
  induction j with
  | zero => rfl
  | succ j ih =>
    have hwp : a ≠ (State.copyByte^[j] s).wp.toNat := by
      rw [State.iterate_copyByte_wp]; exact ha j (Nat.lt_succ_self j)
    rw [Function.iterate_succ_apply', State.copyByte, State.produce_hist, Memory.read_write_other _ _ _ hwp]
    exact ih fun i hi => ha i (Nat.lt_succ_of_lt hi)

theorem State.HistoryView.iterate_copyByte (hview : s.HistoryView) (h : s.olen.toNat + j < 2 ^ 32) :
    (State.copyByte^[j] s).HistoryView := by
  induction j with
  | zero => exact hview
  | succ j ih =>
    have holen := State.iterate_copyByte_olen (s := s) j (by omega)
    rw [Function.iterate_succ_apply']
    exact (ih (by omega)).produce _ (by omega)

end

theorem State.olen_add_copyCount_lt (k : Nat) (s : State) : s.olen.toNat + s.copyCount k < 2 ^ 32 := by
  have := s.size.isLt
  have := s.olen.isLt
  unfold State.copyCount
  omega

section
variable (k : Nat) (s : State)

@[simp] theorem State.copyBytes_len : (s.copyBytes k).len = s.len := (congrArg State.len (s.copyBytes_frame k) :)
@[simp] theorem State.copyBytes_disp : (s.copyBytes k).disp = s.disp := (congrArg State.disp (s.copyBytes_frame k) :)

theorem State.copyBytes_olen_toNat : (s.copyBytes k).olen.toNat = s.olen.toNat + s.copyCount k := by
  rw [State.copyBytes_eq_iterate]
  exact State.iterate_copyByte_olen _ (s.olen_add_copyCount_lt k)

theorem State.copyBytes_wp_toNat : (s.copyBytes k).wp.toNat = (s.wp.toNat + s.copyCount k) % 4096 := by
  rw [State.copyBytes_eq_iterate]
  exact State.iterate_copyByte_wp _

theorem State.copyBytes_read_out {a : Nat} (ha : a < s.olen.toNat ∨ s.olen.toNat + s.copyCount k ≤ a) :
    (s.copyBytes k).out.read .out a = s.out.read .out a := by
  rw [State.copyBytes_eq_iterate]
  exact State.iterate_copyByte_out _ (s.olen_add_copyCount_lt k) ha

theorem State.copyBytes_read_hist {a : Nat} (ha : ∀ i, i < s.copyCount k → a ≠ (s.wp.toNat + i) % 4096) :
    (s.copyBytes k).hist.read .hist a = s.hist.read .hist a := by
  rw [State.copyBytes_eq_iterate]
  exact State.iterate_copyByte_hist _ ha

end

/-! ### A back-reference that runs (R136 to R140) -/

theorem State.backReference_of_within {k : Nat} {disp : BitVec 13} {s : State} (len : BitVec 17) (ha : k ≤ s.avail)
    (hd : disp.toNat ≤ s.olen.toNat) :
    s.backReference k len disp = ((s.advance k).setOperands len disp).copyBytes len.toNat :=
  (State.requireBytes_of_avail _ ha).trans (if_neg (Nat.not_lt.2 hd))

/-- The copy starts with the output, the history and the size of `s`: it writes as many bytes as `olen` advances. -/
theorem State.backReference_ran {k : Nat} {disp : BitVec 13} {s : State} (len : BitVec 17) (ha : k ≤ s.avail)
    (hd : disp.toNat ≤ s.olen.toNat) : s.BackReferenceRan k len disp (s.backReference k len disp) := by
  rw [State.backReference_of_within len ha hd]
  let u := (s.advance k).setOperands len disp
  have hframe : { u.copyBytes len.toNat with
      out := s.out, hist := s.hist, olen := s.olen, wp := s.wp, ip := s.ip, len := s.len, disp := s.disp } = s :=
    congrArg (fun t : State => { t with ip := s.ip, len := s.len, disp := s.disp }) (u.copyBytes_frame len.toNat)
  have holen : (u.copyBytes len.toNat).olen.toNat = s.olen.toNat + s.copyCount len.toNat :=
    u.copyBytes_olen_toNat len.toNat
  have hadvance : (u.copyBytes len.toNat).olen.toNat - s.olen.toNat = s.copyCount len.toNat := by omega
  refine ⟨hframe, u.copyBytes_ip _, u.copyBytes_len _, u.copyBytes_disp _, ?_, ?_, fun a h => ?_, fun a h => ?_⟩
  · rw [holen, State.copyCount]; omega
  · rw [hadvance]; exact u.copyBytes_wp_toNat _
  · exact u.copyBytes_read_out _ (holen ▸ h)
  · exact u.copyBytes_read_hist _ (hadvance ▸ h)

/-- Settles O12: the three forms differ in their bytes and in the length they carry. -/
theorem backReferenceRuns : Obligations.BackReferenceRuns := fun _ _ hd =>
  ⟨fun _ ha => ⟨_, rfl, State.backReference_ran _ ha hd⟩, fun _ ha => ⟨_, rfl, State.backReference_ran _ ha hd⟩,
    fun _ ha => ⟨_, rfl, State.backReference_ran _ ha hd⟩⟩

/-! ### The repeated pattern (R144) -/

/-- The byte that the copy reads is the output byte `disp` back (R140, R141). -/
theorem State.HistoryView.historyByte_eq {s : State} (h : s.HistoryView) (hmin : 1 ≤ s.disp.toNat)
    (hmax : s.disp.toNat ≤ 4096) (hd : s.disp.toNat ≤ s.olen.toNat) :
    s.historyByte = s.out.read .out (s.olen.toNat - s.disp.toNat) := by
  obtain ⟨hwp, hview⟩ := h
  unfold Config.window at hwp hview
  have haddr : (s.wp - s.disp.setWidth 12).toNat = (s.olen.toNat - s.disp.toNat) % 4096 := by
    rw [BitVec.toNat_sub, BitVec.toNat_setWidth, hwp]
    omega
  rw [State.historyByte, haddr]
  exact hview _ (by omega) (by omega)

/-- Byte `i` of the copy is byte `i` modulo `disp` of the pattern: it was read `disp` bytes back, from the pattern or from the copy
itself, where the same holds by induction. -/
theorem State.HistoryView.iterate_copyByte_pattern {s : State} (hview : s.HistoryView) (hmin : 1 ≤ s.disp.toNat)
    (hmax : s.disp.toNat ≤ 4096) (hd : s.disp.toNat ≤ s.olen.toNat) (j : Nat) (hroom : s.olen.toNat + j < 2 ^ 32)
    (i : Nat) (hi : i < j) :
    (State.copyByte^[j] s).out.read .out (s.olen.toNat + i) =
      s.out.read .out (s.olen.toNat - s.disp.toNat + i % s.disp.toNat) := by
  induction j generalizing i with
  | zero => exact absurd hi (Nat.not_lt_zero i)
  | succ j ih =>
    have hroom' : s.olen.toNat + j < 2 ^ 32 := by omega
    have holen := State.iterate_copyByte_olen j hroom'
    have hdisp := State.iterate_copyByte_disp (s := s) j
    rw [Function.iterate_succ_apply', State.copyByte, State.produce_out, holen, Memory.read_write]
    by_cases hlast : i = j
    · subst hlast
      rw [if_pos rfl, (hview.iterate_copyByte i hroom').historyByte_eq (by rwa [hdisp]) (by rwa [hdisp])
        (by rw [hdisp, holen]; omega), hdisp, holen]
      rcases Nat.lt_or_ge i s.disp.toNat with hnew | hcopied
      · rw [State.iterate_copyByte_out i hroom' (by omega), Nat.mod_eq_of_lt hnew]
        congr 1; omega
      · have hback := ih hroom' (i - s.disp.toNat) (by omega)
        rw [Nat.mod_eq_sub_mod hcopied, ← hback]
        congr 1; omega
    · rw [if_neg (by omega)]
      exact ih hroom' i (by omega)

/-- Settles O13: the copy within the declared size, of which R144 gives each byte. -/
theorem backReferenceRepeatsPattern : Obligations.BackReferenceRepeatsPattern := by
  intro k len disp s ha hmin hmax hd hsize hview
  rw [State.backReference_of_within len ha hd]
  let u := (s.advance k).setOperands len disp
  have hu : u.HistoryView := hview
  refine ⟨hu.copyBytes _, fun i hi hlt => ?_⟩
  have hcount : i < u.copyCount len.toNat := lt_min hi (Nat.lt_sub_iff_add_lt'.2 hlt)
  rw [State.copyBytes_eq_iterate]
  exact hu.iterate_copyByte_pattern hmin hmax hd _ (u.olen_add_copyCount_lt _) i hcount

end Sys2Proof.Machine
end

section
/-! The match detector's result is the longest match, at the smallest displacement that reaches it (O40). -/

namespace Sys2Proof.Machine

/-! ### What `matchLength` and `bestMatch` compute (R162, R164, R165) -/

/-- `mlen(d)` bounds exactly the lengths to which the input repeats itself `d` bytes back. -/
theorem le_matchLength_iff {x : Nat → Byte} {pos d k m : Nat} :
    m ≤ matchLength x pos d k 0 ↔ m ≤ k ∧ ∀ i, i < m → x (pos + i) = x (pos - d + i) := by
  obtain ⟨-, hle, hmatch, hstop⟩ := matchLength_spec x pos d k 0
  constructor
  · exact fun h => ⟨by omega, fun i hi => hmatch i (Nat.zero_le i) (by omega)⟩
  · rintro ⟨hk, hall⟩
    by_contra hlt
    exact hstop (by omega) (hall _ (by omega))

section
variable {x : Nat → Byte} {pos maxlen : Nat}

/-- A match that was found belongs to one of the candidates. -/
theorem bestMatch_reached {c : Nat} (h : 1 ≤ (bestMatch x pos maxlen c).1) :
    1 ≤ (bestMatch x pos maxlen c).2 ∧ (bestMatch x pos maxlen c).2 ≤ c ∧
      matchLength x pos (bestMatch x pos maxlen c).2 maxlen 0 = (bestMatch x pos maxlen c).1 := by
  induction c with
  | zero => exact absurd h (by simp [bestMatch])
  | succ c ih =>
    simp only [bestMatch] at h ⊢
    split at h
    next hbetter =>
      rw [if_pos hbetter]
      exact ⟨Nat.succ_pos c, le_rfl, rfl⟩
    next hkept =>
      rw [if_neg hkept]
      obtain ⟨hmin, hmax, hlength⟩ := ih h
      exact ⟨hmin, Nat.le_succ_of_le hmax, hlength⟩

/-- A farther candidate replaces the best one only if it is strictly longer, so among equals the nearest stays. -/
theorem matchLength_le_bestMatch {c d : Nat} (hmin : 1 ≤ d) (hmax : d ≤ c) :
    matchLength x pos d maxlen 0 ≤ (bestMatch x pos maxlen c).1 ∧
      (matchLength x pos d maxlen 0 = (bestMatch x pos maxlen c).1 → 1 ≤ (bestMatch x pos maxlen c).1 →
        (bestMatch x pos maxlen c).2 ≤ d) := by
  induction c with
  | zero => omega
  | succ c ih =>
    simp only [bestMatch]
    rcases Nat.of_le_succ hmax with hold | rfl
    · obtain ⟨hle, hnearest⟩ := ih hold
      split
      next hbetter => exact ⟨by omega, by omega⟩
      next => exact ⟨hle, hnearest⟩
    · split
      next => exact ⟨le_rfl, fun _ _ => le_rfl⟩
      next hkept =>
        refine ⟨not_lt.1 hkept, fun _ hfound => ?_⟩
        obtain ⟨-, hcandidate, -⟩ := bestMatch_reached hfound
        exact Nat.le_succ_of_le hcandidate

end

/-! ### The result registers hold the search's result: it fits their widths -/

theorem State.findMatch_length_le (s : State) : s.findMatch.1 ≤ min (s.n.toNat - s.pos.toNat) 0x10110 :=
  bestMatch_le _ _ _ _

theorem State.findMatch_disp_le {s : State} (h : 1 ≤ s.findMatch.1) : s.findMatch.2 ≤ min s.pos.toNat 4096 := by
  obtain ⟨-, hcandidate, -⟩ := bestMatch_reached h
  exact hcandidate

@[simp] theorem State.detect_mlen_toNat (s : State) : s.detect.mlen.toNat = s.findMatch.1 := by
  have hfits := s.findMatch_length_le
  unfold State.detect
  split
  next hnone => exact hnone.symm
  next => exact (BitVec.toNat_ofNat _ _).trans (Nat.mod_eq_of_lt (by omega))

theorem State.detect_mdisp_toNat {s : State} (h : 1 ≤ s.findMatch.1) : s.detect.mdisp.toNat = s.findMatch.2 := by
  have hfits := State.findMatch_disp_le h
  rw [State.detect, if_neg (Nat.pos_iff_ne_zero.1 h)]
  exact (BitVec.toNat_ofNat _ _).trans (Nat.mod_eq_of_lt (by omega))

/-- Settles O40: the registers hold the search's result, the longest of the candidates' matches and the nearest of that length. -/
theorem detectorFindsLongestNearestMatch : Obligations.DetectorFindsLongestNearestMatch := by
  intro s _ x pos maxlen t
  have hmlen : t.mlen.toNat = s.findMatch.1 := s.detect_mlen_toNat
  refine ⟨s.detect_frame, hmlen.trans_le s.findMatch_length_le, fun hfound => ?_, fun d m hmin hmax hm hmatch => ?_⟩
  · rw [hmlen] at hfound ⊢
    rw [State.detect_mdisp_toNat hfound]
    obtain ⟨hdisp, hdispMax, hlength⟩ := bestMatch_reached hfound
    exact ⟨hdisp, hdispMax, (le_matchLength_iff.1 hlength.ge).2⟩
  · have hreach : m ≤ matchLength x pos d maxlen 0 := le_matchLength_iff.2 ⟨hm, hmatch⟩
    obtain ⟨hle, hnearest⟩ : matchLength x pos d maxlen 0 ≤ s.findMatch.1 ∧
        (matchLength x pos d maxlen 0 = s.findMatch.1 → 1 ≤ s.findMatch.1 → s.findMatch.2 ≤ d) :=
      matchLength_le_bestMatch hmin hmax
    rw [hmlen]
    refine ⟨hreach.trans hle, fun heq hpos => ?_⟩
    have hfound : 1 ≤ s.findMatch.1 := heq ▸ hpos
    rw [State.detect_mdisp_toNat hfound]
    exact hnearest (hle.antisymm (heq ▸ hreach)) hfound

end Sys2Proof.Machine
end

section
/-! The token encoder's stream: its sub-header (O27), the lengths it refuses (O29), a token in its group (O41), and the groups
that go out, the eighth token's and the last one (O42, O43). -/

namespace Sys2Proof.Machine

/-! ### The stream, byte by byte -/

/-- `emit` writes its bytes at the end of the stream and leaves every other byte of it alone. -/
theorem State.emit_encodedByte (bytes : List Byte) (s : State) (a : Nat) :
    (s.emit bytes).encodedByte a =
      if h : s.wlen.toNat ≤ a ∧ a < s.wlen.toNat + bytes.length then bytes[a - s.wlen.toNat] else s.encodedByte a := by
  rcases s.emit_cases bytes with ⟨hop, e⟩ | ⟨hop, e⟩ <;> rw [e]
  · simpa only [State.encodedByte, if_pos hop] using Memory.read_writeAll .out bytes s.out s.wlen.toNat a
  · simpa only [State.encodedByte, if_neg hop] using Memory.read_writeAll .work bytes s.work s.wlen.toNat a

theorem State.emit_encodedByte_of_outside {bytes : List Byte} {s : State} {a : Nat}
    (h : a < s.wlen.toNat ∨ s.wlen.toNat + bytes.length ≤ a) : (s.emit bytes).encodedByte a = s.encodedByte a := by
  rw [State.emit_encodedByte, dif_neg (by omega)]

theorem State.emit_encodedByte_of_inside {bytes : List Byte} (s : State) {k : Nat} (h : k < bytes.length) :
    (s.emit bytes).encodedByte (s.wlen.toNat + k) = bytes[k] := by
  rw [State.emit_encodedByte, dif_pos (by omega)]
  simp

theorem State.emit_wlen_toNat {bytes : List Byte} {s : State} (h : s.wlen.toNat + bytes.length < 2 ^ 32) :
    (s.emit bytes).wlen.toNat = s.wlen.toNat + bytes.length := by
  rw [State.emit_wlen, BitVec.toNat_add, BitVec.toNat_ofNat]
  omega

/-- The memory that is not the stream keeps its content. -/
theorem State.emit_other_memory (bytes : List Byte) (s : State) :
    (s.op = opLzEnc → (s.emit bytes).work = s.work) ∧ (s.op ≠ opLzEnc → (s.emit bytes).out = s.out) := by
  rcases s.emit_cases bytes with ⟨hop, e⟩ | ⟨hop, e⟩ <;> rw [e]
  · exact ⟨fun _ => rfl, fun h => absurd hop h⟩
  · exact ⟨fun h => absurd h hop, fun _ => rfl⟩

/-! ### The start (R180, R181) -/

/-- The 24-bit size of an accepted input is its length. -/
theorem setWidth_inputLength_toNat {n : Word} (h : n.toNat ≤ Config.maxIn) : (n.setWidth 24).toNat = n.toNat := by
  unfold Config.maxIn at h
  rw [BitVec.toNat_setWidth]
  omega

/-- The start of a command, as it was before `emit` wrote to the stream. -/
theorem State.Started.emit {op : BitVec 3} {mode : BitVec 1} {s u : State} (bytes : List Byte) (h : s.Started op mode u) :
    s.Started op mode (u.emit bytes) := by
  rcases u.emit_cases bytes with ⟨-, e⟩ | ⟨-, e⟩ <;> rw [e] <;> exact h

theorem State.EncoderCleared.emit {u : State} (bytes : List Byte) (h : u.EncoderCleared) :
    (u.emit bytes).EncoderCleared := by
  rcases u.emit_cases bytes with ⟨-, e⟩ | ⟨-, e⟩ <;> rw [e] <;> exact h

@[simp] theorem State.emit_n (bytes : List Byte) (s : State) : (s.emit bytes).n = s.n :=
  (congrArg State.n (s.emit_frame bytes) :)

/-- The state in which an accepted input begins to be compressed, before the sub-header goes out. -/
def State.beforeHeader (op : BitVec 3) (mode : BitVec 1) (s : State) : State :=
  { s.start op mode with n := s.inLen, phase := .compress }

theorem State.startEncoder_start {s : State} (op : BitVec 3) (mode : BitVec 1) (hmin : 2 ≤ s.inLen.toNat)
    (hmax : s.inLen.toNat ≤ 0xFFFFFF) :
    (s.start op mode).startEncoder = (s.beforeHeader op mode).emit (encode (.lzhdr (s.inLen.setWidth 24))) :=
  State.startEncoder_of_accepted hmin hmax

/-- What either compressing command finds in the stream of an accepted input: the magic and the length. -/
theorem State.beforeHeader_emit_started {s : State} (op : BitVec 3) (mode : BitVec 1) (hmax : s.inLen.toNat ≤ 0xFFFFFF) :
    let t := (s.beforeHeader op mode).emit (encode (.lzhdr (s.inLen.setWidth 24)))
    s.Started op mode t ∧ t.EncoderCleared ∧ t.phase = .compress ∧ t.n = s.inLen ∧ t.wlen = 4 ∧
      t.encodedByte 0 = 0x11 ∧ ∀ k < 3, (t.encodedByte (1 + k)).toNat = s.inLen.toNat / 256 ^ k % 256 := by
  intro t
  obtain ⟨hstarted, -, hcleared⟩ := s.start_started op mode
  have hbyte (k : Nat) (h : k < 4) : t.encodedByte k = (encode (.lzhdr (s.inLen.setWidth 24)))[k] := by
    have hk := (s.beforeHeader op mode).emit_encodedByte_of_inside (bytes := encode (.lzhdr (s.inLen.setWidth 24))) (k := k) h
    have hwlen : (s.beforeHeader op mode).wlen.toNat = 0 := rfl
    rwa [hwlen, Nat.zero_add] at hk
  refine ⟨.emit _ hstarted, .emit _ hcleared, State.emit_phase _ _, State.emit_n _ _, State.emit_wlen _ _,
    hbyte 0 (by decide), fun k hk => ?_⟩
  have hfield : t.encodedByte (1 + k) = byteOf (s.inLen.setWidth 24) k := by
    rw [hbyte (1 + k) (by omega)]
    match k, hk with
    | 0, _ => rfl
    | 1, _ => rfl
    | 2, _ => rfl
  rw [hfield, byteOf_toNat, setWidth_inputLength_toNat hmax, Nat.pow_mul]

/-- Settles O27: both commands start alike, and the sub-header is the whole stream. -/
theorem compressionStarts : Obligations.CompressionStarts := by
  intro mode s hb hmin hmax
  have hstart (op : BitVec 3) (mode : BitVec 1) : s.startCommand op mode State.startEncoder =
      (s.beforeHeader op mode).emit (encode (.lzhdr (s.inLen.setWidth 24))) :=
    (State.startCommand_of_not_busy hb ..).trans (State.startEncoder_start op mode hmin hmax)
  exact ⟨⟨_, congrArg Host.Outcome.next (hstart opLzEnc mode), State.beforeHeader_emit_started _ _ hmax⟩,
    ⟨_, congrArg Host.Outcome.next (hstart opCtEnc 1), State.beforeHeader_emit_started _ _ hmax⟩⟩

/-- Settles O29: the latched length is tested before anything is written. -/
theorem inputLengthOutOfRangeRaises : Obligations.InputLengthOutOfRangeRaises := by
  intro mode s hb
  refine ⟨fun hshort => ?_, fun hlarge => ?_⟩
  · have hraise (op : BitVec 3) (mode : BitVec 1) :
        s.EndedBy .inputTooShort (s.startCommand op mode State.startEncoder) := by
      rw [State.startCommand_of_not_busy hb, State.startEncoder_of_short hshort]
      exact State.raise_endedBy _ rfl rfl
    exact ⟨⟨_, rfl, hraise _ _⟩, ⟨_, rfl, hraise _ _⟩⟩
  · have hraise (op : BitVec 3) (mode : BitVec 1) :
        s.EndedBy .inputTooLarge (s.startCommand op mode State.startEncoder) := by
      have hmin : Config.minIn ≤ (s.start op mode).ilenCmd.toNat := le_trans (by decide) hlarge.le
      rw [State.startCommand_of_not_busy hb, State.startEncoder_of_large hmin hlarge]
      exact State.raise_endedBy _ rfl rfl
    refine ⟨⟨_, rfl, hraise _ _⟩, ⟨_, rfl, hraise _ _⟩, ⟨_, rfl, ?_⟩⟩
    rw [State.startCommand_of_not_busy hb, State.loadRaw_of_large (s := s.start opCtEnc 0) hlarge]
    exact State.raise_endedBy _ rfl rfl

/-! ### The flush (R190) -/

theorem State.flush_encodedByte (s : State) : s.flush.encodedByte = ((s.emit [s.gflags]).emit s.gbuf).encodedByte := rfl

theorem State.flush_other_memory (s : State) :
    (s.op = opLzEnc → s.flush.work = s.work) ∧ (s.op ≠ opLzEnc → s.flush.out = s.out) := by
  obtain ⟨hwork, hout⟩ := s.emit_other_memory [s.gflags]
  obtain ⟨hwork', hout'⟩ := (s.emit [s.gflags]).emit_other_memory s.gbuf
  rw [State.emit_op] at hwork' hout'
  exact ⟨fun h => (hwork' h).trans (hwork h), fun h => (hout' h).trans (hout h)⟩

/-- A flush sends the group out. -/
theorem State.flush_groupSent {s : State} (h : s.wlen.toNat + 1 + s.gbuf.length < 2 ^ 32) :
    s.GroupSent s.gflags s.gbuf s.flush := by
  have hwlen : (s.emit [s.gflags]).wlen.toNat = s.wlen.toNat + 1 := State.emit_wlen_toNat (by simp; omega)
  refine ⟨rfl, rfl, rfl, s.flush_op, State.flush_wlen_toNat h, ?_, fun k hk => ?_, fun a ha => ?_, s.flush_other_memory⟩
  · rw [State.flush_encodedByte, State.emit_encodedByte_of_outside (by omega)]
    exact s.emit_encodedByte_of_inside (bytes := [s.gflags]) (k := 0) (by simp)
  · rw [State.flush_encodedByte, ← hwlen]
    exact State.emit_encodedByte_of_inside _ hk
  · rw [State.flush_wlen_toNat h] at ha
    rw [State.flush_encodedByte, State.emit_encodedByte_of_outside (by omega),
      State.emit_encodedByte_of_outside (by simp; omega)]

/-! ### A token in its group (R189) -/

/-- The state in which a token has joined its group. -/
def State.join (token : List Byte) (isRef : Bool) (s : State) : State :=
  { s with gflags := groupFlags s.gflags s.gcount isRef, gbuf := s.gbuf ++ token, gcount := s.gcount + 1 }

theorem State.join_gcount_toNat (token : List Byte) (isRef : Bool) {s : State} (h : s.gcount.toNat < 8) :
    (s.join token isRef).gcount.toNat = s.gcount.toNat + 1 := by
  have hcount : (s.join token isRef).gcount = s.gcount + 1 := rfl
  rw [hcount, BitVec.toNat_add]
  exact Nat.mod_eq_of_lt (by simp; omega)

theorem State.account_of_room {s : State} (token : List Byte) (isRef : Bool) (h : s.gcount.toNat < 7) :
    s.account token isRef = s.join token isRef :=
  if_neg fun heq => by
    have hcount : s.gcount.toNat + 1 = 8 := (State.join_gcount_toNat token isRef (by omega)).symm.trans heq
    omega

theorem State.account_of_eighth {s : State} (token : List Byte) (isRef : Bool) (h : s.gcount.toNat = 7) :
    s.account token isRef = (s.join token isRef).flush :=
  if_pos ((State.join_gcount_toNat token isRef (by omega)).trans (congrArg Nat.succ h))

/-- The group that goes out with its eighth token. -/
theorem State.account_groupSent {s : State} (token : List Byte) (isRef : Bool) (h : s.gcount.toNat = 7)
    (hroom : s.wlen.toNat + 1 + s.gbuf.length + token.length < 2 ^ 32) :
    s.GroupSent (groupFlags s.gflags s.gcount isRef) (s.gbuf ++ token) (s.account token isRef) := by
  rw [State.account_of_eighth token isRef h]
  exact State.flush_groupSent (s := s.join token isRef) (by simpa [State.join, ← add_assoc] using hroom)

/-- Settles O42: the eighth token's flag is bit 0 of the flag byte, and its group is flushed. -/
theorem eighthTokenFlushesGroup : Obligations.EighthTokenFlushesGroup := by
  intro token isRef s hcount hroom
  have hflags : groupFlags s.gflags s.gcount isRef = if isRef then s.gflags ||| 1 else s.gflags := by
    rw [groupFlags, hcount]
    rfl
  exact ⟨s.account_frame token isRef, hflags ▸ State.account_groupSent token isRef (congrArg BitVec.toNat hcount) hroom⟩

/-! ### The end of the input (R191, R192, R228) -/

theorem engineStep_of_compress {s : State} (h : s.phase = .compress) : engineStep s = .next s.compressStep := by
  simp [engineStep, h]

theorem State.compressStep_of_end {s : State} (h : s.n.toNat ≤ s.pos.toNat) : s.compressStep = s.finishEncoder :=
  if_neg (Nat.not_lt.2 h)

theorem State.compressStep_of_token {s : State} (h : s.pos.toNat < s.n.toNat) : s.compressStep = s.detect.emitToken :=
  if_pos h

/-- The stream's length with the last group in it. -/
def State.finalLength (s : State) : Nat := if s.gcount = 0 then s.wlen.toNat else s.wlen.toNat + 1 + s.gbuf.length

theorem State.lastFlush_of_empty {s : State} (h : s.gcount = 0) : s.lastFlush = s := if_pos h

theorem State.lastFlush_of_group {s : State} (h : s.gcount ≠ 0) : s.lastFlush = s.flush := if_neg h

@[simp] theorem State.lastFlush_op (s : State) : s.lastFlush.op = s.op := (congrArg State.op s.lastFlush_frame :)

/-- The final flush appends a group that is not empty and nothing else (R191). -/
theorem State.lastFlush_appends {s : State} (h : s.wlen.toNat + 1 + s.gbuf.length < 2 ^ 32) :
    s.lastFlush.wlen.toNat = s.finalLength ∧
      (∀ a, a < s.wlen.toNat ∨ s.finalLength ≤ a → s.lastFlush.encodedByte a = s.encodedByte a) ∧
      (s.gcount ≠ 0 → s.lastFlush.encodedByte s.wlen.toNat = s.gflags ∧
        ∀ k (h : k < s.gbuf.length), s.lastFlush.encodedByte (s.wlen.toNat + 1 + k) = s.gbuf[k]) := by
  by_cases hempty : s.gcount = 0
  · rw [State.lastFlush_of_empty hempty, State.finalLength, if_pos hempty]
    exact ⟨rfl, fun _ _ => rfl, fun hne => absurd hempty hne⟩
  · obtain ⟨-, -, -, -, hwlen, hflags, hbuf, hother, -⟩ := State.flush_groupSent h
    rw [State.lastFlush_of_group hempty, State.finalLength, if_neg hempty, ← hwlen]
    exact ⟨rfl, hother, fun _ => ⟨hflags, hbuf⟩⟩

/-- Settles O43: the step is the final flush and then the completion, or the hand-over to padding. -/
theorem finalFlushEndsCompression : Obligations.FinalFlushEndsCompression := by
  intro s hturns hp hpos hroom
  have hstep : step s = .next s.finishEncoder := by
    rw [step_of_no_turns hturns, engineStep_of_compress hp, State.compressStep_of_end hpos]
  obtain ⟨hwlen, hbytes⟩ := State.lastFlush_appends hroom
  refine ⟨_, hstep, ?_⟩
  rcases s.finishEncoder_cases with ⟨hop, e⟩ | ⟨hop, e⟩ <;> rw [e]
  · have hend := State.complete_succeeded s.lastFlush.wlen s.lastFlush
    rw [hwlen] at hend
    exact ⟨fun _ => hend, fun hne => absurd hop hne, hbytes⟩
  · exact ⟨fun heq => absurd heq hop, fun _ => ⟨rfl, hwlen, (congrArg State.status s.lastFlush_frame :)⟩, hbytes⟩

/-! ### The choice of a token (R183 to R185) -/

/-- The detector changes three fields at most. -/
theorem State.detect_eq (s : State) :
    s.detect = { s with mlen := s.detect.mlen, mdisp := s.detect.mdisp, free := s.detect.free } := by
  unfold State.detect
  split <;> rfl

/-- Whether a back-reference is chosen: the match is long enough (R183). -/
def State.choosesRef (s : State) : Bool := decide (3 ≤ s.mlen.toNat)

/-- The chosen token's bytes. -/
def State.chosenToken (s : State) : List Byte :=
  if s.choosesRef then encode (refToken s.mlen s.mdisp) else [s.inp.read .inp s.pos.toNat]

/-- Where the input goes on after the chosen token. -/
def State.nextPos (s : State) : Word := if s.choosesRef then s.pos + s.mlen.setWidth 32 else s.pos + 1

/-- The state is moved past the token, which then enters its group. -/
theorem State.emitToken_eq (s : State) :
    s.emitToken = { s with pos := s.nextPos }.account s.chosenToken s.choosesRef := by
  rcases Nat.lt_or_ge s.mlen.toNat 3 with hshort | hmatch
  · have hlit : s.choosesRef = false := decide_eq_false (by omega)
    rw [State.emitToken_of_short hshort, State.nextPos, State.chosenToken, hlit]
    rfl
  · have href : s.choosesRef = true := decide_eq_true hmatch
    rw [State.emitToken_of_match hmatch, State.nextPos, State.chosenToken, href]
    rfl

theorem State.chosenToken_length_le (s : State) : s.chosenToken.length ≤ 4 := by
  unfold State.chosenToken
  split
  next href => exact (encode_refToken_cost s.mdisp (of_decide_eq_true href)).1
  next => simp

/-- The state past the token that the detector's result chooses, before the token enters its group. -/
def State.searched (s : State) : State :=
  { s with mlen := s.detect.mlen, mdisp := s.detect.mdisp, free := s.detect.free, pos := s.detect.nextPos }

theorem State.detect_emitToken_eq (s : State) :
    s.detect.emitToken = s.searched.account s.detect.chosenToken s.detect.choosesRef := by
  have hmoved : { s.detect with pos := s.detect.nextPos } = s.searched :=
    congrArg (fun u : State => { u with pos := s.detect.nextPos }) s.detect_eq
  rw [State.emitToken_eq, hmoved]

@[simp] theorem State.detect_inp (s : State) : s.detect.inp = s.inp := (congrArg State.inp s.detect_frame :)

theorem State.searched_account_frame (token : List Byte) (isRef : Bool) (s : State) :
    { s.searched.account token isRef with
      pos := s.pos, gflags := s.gflags, gcount := s.gcount, gbuf := s.gbuf
      mlen := s.mlen, mdisp := s.mdisp, free := s.free, out := s.out, work := s.work, wlen := s.wlen } = s := by
  have h := s.searched.account_frame token isRef
  rw [State.mk.injEq] at h ⊢
  simp_all [State.searched]

theorem State.searched_join_frame (token : List Byte) (isRef : Bool) (s : State) :
    { s.searched.join token isRef with
      pos := s.pos, gflags := s.gflags, gcount := s.gcount, gbuf := s.gbuf
      mlen := s.mlen, mdisp := s.mdisp, free := s.free } = s := by
  simp only [State.join, State.searched]

/-- Settles O41: with the detector's result in place the token is chosen, and `account` buffers it or sends its group. -/
theorem tokenIsChosenAndBuffered : Obligations.TokenIsChosenAndBuffered := by
  intro s hturns hp hpos hcount isRef token flagByte
  have htoken : s.detect.chosenToken = token := by rw [State.chosenToken, State.detect_inp, State.detect_pos]; rfl
  have hnext : s.detect.nextPos = if isRef then s.pos + s.detect.mlen.setWidth 32 else s.pos + 1 := by
    rw [State.nextPos, State.detect_pos]; rfl
  have hstep : step s = .next (s.searched.account token isRef) := by
    rw [step_of_no_turns hturns, engineStep_of_compress hp, State.compressStep_of_token hpos, State.detect_emitToken_eq,
      htoken]
    rfl
  have hframe := s.searched.account_frame token isRef
  refine ⟨_, hstep, (congrArg State.mlen hframe :), (congrArg State.mdisp hframe :), (congrArg State.free hframe :),
    (congrArg State.pos hframe :).trans hnext, fun hroom => ?_, fun heighth hwlen => ?_⟩
  · rw [State.account_of_room (s := s.searched) token isRef hroom]
    exact ⟨s.searched_join_frame token isRef, State.join_gcount_toNat (s := s.searched) token isRef hcount, rfl, rfl⟩
  · have hlength : token.length ≤ 4 := htoken ▸ s.detect.chosenToken_length_le
    have hroom : s.wlen.toNat + 1 + s.gbuf.length + token.length < 2 ^ 32 := by omega
    have hsent : s.searched.GroupSent flagByte (s.gbuf ++ token) (s.searched.account token isRef) :=
      State.account_groupSent (s := s.searched) token isRef heighth hroom
    exact ⟨s.searched_account_frame token isRef, hsent⟩

end Sys2Proof.Machine
end

section
/-! The compressed stream as a grammar: tokens that stand for the input piece by piece, in groups of eight, of which only the
last may hold fewer (R182 to R191). The size bounds of R196 are facts of the grammar, and `LZ_ENC` writes such a stream (O57). -/

namespace Sys2Proof.Machine

/-! ### Tokens -/

/-- The flag bit of a token (R94, R189). -/
def tokenBit (t : Instr) : Bool := decide (t.context = .token true)

/-- The token `t` stands for `x[p .. q)` once `x[0 .. p)` is known: a literal byte (R184), or a match within the
window (R185). -/
inductive Covers (x : Nat → Byte) (p : Nat) : Instr → Nat → Prop
  /-- A literal. -/
  | literal : Covers x p (.lit (x p)) (p + 1)
  /-- A back-reference whose length and displacement can be stored. -/
  | reference (len : BitVec 17) (disp : BitVec 13) (hmin : 3 ≤ len.toNat) (hmax : len.toNat ≤ 65808)
      (hdisp : 1 ≤ disp.toNat) (hwindow : disp.toNat ≤ min p 4096)
      (hmatch : ∀ i, i < len.toNat → x (p + i) = x (p - disp.toNat + i)) :
      Covers x p (refToken len disp) (p + len.toNat)

theorem refToken_context (len : BitVec 17) (disp : BitVec 13) : (refToken len disp).context = .token true := by
  unfold refToken
  repeat' split
  all_goals rfl

theorem tokenBit_refToken (len : BitVec 17) (disp : BitVec 13) : tokenBit (refToken len disp) = true :=
  decide_eq_true (refToken_context len disp)

section
variable {x : Nat → Byte} {p q : Nat} {t : Instr}

theorem Covers.context (h : Covers x p t q) : t.context = .token (tokenBit t) := by
  cases h with
  | literal => rfl
  | reference len disp => rw [tokenBit_refToken, refToken_context]

theorem Covers.wellFormed (h : Covers x p t q) : t.wellFormed = true := by
  cases h with
  | literal => rfl
  | reference len disp hmin => exact refToken_wellFormed disp hmin

theorem Covers.lt (h : Covers x p t q) : p < q := by
  cases h <;> omega

/-- Eight of nine bits at most go to the token's bytes, the ninth to its flag (R196). -/
theorem Covers.cost (h : Covers x p t q) : 8 * (encode t).length + 1 + 9 * p ≤ 9 * q := by
  cases h with
  | literal => simp only [encode, List.length_cons, List.length_nil]; omega
  | reference len disp hmin => have := (encode_refToken_cost disp hmin).2; omega

/-- At the start of the input there is nothing to refer back to. -/
theorem Covers.eq_one_of_start (h : Covers x 0 t q) : q = 1 := by
  cases h with
  | literal => rfl
  | reference len disp hmin hmax hdisp hwindow => omega

end

theorem encode_length_bounds (t : Instr) : 1 ≤ (encode t).length ∧ (encode t).length ≤ 8 := by
  rw [encode_length]
  cases t <;> simp [Instr.length]

/-- Consecutive tokens that stand for `x[p .. q)`. -/
inductive TokenRun (x : Nat → Byte) (p : Nat) : List Instr → Nat → Prop
  | nil : TokenRun x p [] p
  | snoc {ts : List Instr} {q : Nat} {t : Instr} {r : Nat} (h : TokenRun x p ts q) (ht : Covers x q t r) :
      TokenRun x p (ts ++ [t]) r

/-- The bytes of consecutive tokens. -/
def tokenBytes (ts : List Instr) : List Byte := ts.flatMap encode

@[simp] theorem tokenBytes_nil : tokenBytes [] = [] := rfl

@[simp] theorem tokenBytes_snoc (ts : List Instr) (t : Instr) : tokenBytes (ts ++ [t]) = tokenBytes ts ++ encode t := by
  simp [tokenBytes]

section
variable {x : Nat → Byte} {p q : Nat} {ts : List Instr}

theorem TokenRun.add_length_le (h : TokenRun x p ts q) : p + ts.length ≤ q := by
  induction h with
  | nil => simp
  | snoc h ht ih =>
    have := ht.lt
    simp only [List.length_append, List.length_singleton]
    omega

theorem TokenRun.eq_of_length_eq_zero (h : TokenRun x p ts q) (hts : ts.length = 0) : p = q := by
  cases h with
  | nil => rfl
  | snoc h ht => simp at hts

theorem TokenRun.length_le (h : TokenRun x p ts q) : ts.length ≤ (tokenBytes ts).length := by
  induction h with
  | nil => simp
  | @snoc ts q t r h ht ih =>
    have := (encode_length_bounds t).1
    simp only [tokenBytes_snoc, List.length_append, List.length_singleton]
    omega

theorem TokenRun.cost (h : TokenRun x p ts q) : 8 * (tokenBytes ts).length + ts.length + 9 * p ≤ 9 * q := by
  induction h with
  | nil => simp
  | snoc h ht ih =>
    have := ht.cost
    simp only [tokenBytes_snoc, List.length_append, List.length_singleton]
    omega

/-- One token from the start of the input stands for one byte. -/
theorem TokenRun.two_le_length (h : TokenRun x 0 ts q) (hq : 2 ≤ q) : 2 ≤ ts.length := by
  cases h with
  | nil => omega
  | snoc h ht =>
    cases h with
    | nil => have := ht.eq_one_of_start; omega
    | snoc h' ht' => simp

end

/-! ### Groups -/

/-- Bit `7 - i` of the flag byte is the flag bit of token `i`, and 0 beyond the tokens (R62, R189, R191). -/
def FlagsMark (f : Byte) (ts : List Instr) : Prop := ∀ i, i < 8 → f.getLsbD (7 - i) = ts[i]?.any tokenBit

theorem flagsMark_nil : FlagsMark 0 [] := fun i _ => by simp

/-- The bit that a back-reference sets is that of its place in the group. -/
theorem shiftRight_0x80_getLsbD : ∀ g < 8, ∀ i < 8, ((0x80 : BitVec 8) >>> g).getLsbD (7 - i) = decide (i = g) := by
  decide

theorem groupFlags_getLsbD (f : Byte) {g : BitVec 4} (isRef : Bool) (hg : g.toNat < 8) {i : Nat} (hi : i < 8) :
    (groupFlags f g isRef).getLsbD (7 - i) = (f.getLsbD (7 - i) || (isRef && decide (i = g.toNat))) := by
  cases isRef with
  | false => simp [groupFlags]
  | true =>
    rw [groupFlags, if_pos rfl, BitVec.getLsbD_or, shiftRight_0x80_getLsbD _ hg _ hi, Bool.true_and]

theorem FlagsMark.snoc {f : Byte} {ts : List Instr} {g : BitVec 4} (h : FlagsMark f ts) (hlen : ts.length = g.toNat)
    (hg : g.toNat < 8) (t : Instr) : FlagsMark (groupFlags f g (tokenBit t)) (ts ++ [t]) := by
  intro i hi
  rw [groupFlags_getLsbD f _ hg hi, h i hi]
  rcases Nat.lt_trichotomy i ts.length with hlt | rfl | hgt
  · have hne : i ≠ g.toNat := by omega
    simp [List.getElem?_append_left hlt, hne]
  · simp [hlen]
  · have hne : i ≠ g.toNat := by omega
    have hnone : ts[i]? = none := List.getElem?_eq_none hgt.le
    have hnone' : (ts ++ [t])[i]? = none := List.getElem?_eq_none (by simpa using hgt)
    simp [hnone, hnone', hne]

/-- A group in the stream: the flag byte, then the tokens (R190). -/
def groupBytes (f : Byte) (ts : List Instr) : List Byte := f :: tokenBytes ts

/-- Whole groups that stand for `x[0 .. p)`. -/
inductive WholeGroups (x : Nat → Byte) : Nat → List Byte → Prop
  | nil : WholeGroups x 0 []
  | snoc {p : Nat} {bytes : List Byte} {ts : List Instr} {q : Nat} {f : Byte} (h : WholeGroups x p bytes)
      (hrun : TokenRun x p ts q) (hlen : ts.length = 8) (hf : FlagsMark f ts) :
      WholeGroups x q (bytes ++ groupBytes f ts)

/-- What follows the sub-header in the compressed form of `x[0 .. n)`: groups of which only the last may be partial (R191). -/
inductive CompressedBody (x : Nat → Byte) (n : Nat) : List Byte → Prop
  | whole {bytes : List Byte} (h : WholeGroups x n bytes) : CompressedBody x n bytes
  | lastGroup {p : Nat} {bytes : List Byte} {ts : List Instr} {f : Byte} (h : WholeGroups x p bytes)
      (hrun : TokenRun x p ts n) (hmin : 1 ≤ ts.length) (hmax : ts.length < 8) (hf : FlagsMark f ts) :
      CompressedBody x n (bytes ++ groupBytes f ts)

/-! ### The size of a compressed stream (R196) -/

section
variable {x : Nat → Byte} {p n : Nat} {bytes : List Byte}

/-- The flag byte of a whole group is paid by the flag bits of its eight tokens. -/
theorem WholeGroups.cost (h : WholeGroups x p bytes) : 8 * bytes.length ≤ 9 * p := by
  induction h with
  | nil => simp
  | snoc h hrun hlen hf ih =>
    have := hrun.cost
    simp only [groupBytes, List.length_append, List.length_cons]
    omega

/-- There is no whole group, or one of nine bytes at least. -/
theorem WholeGroups.eq_zero_or_long (h : WholeGroups x p bytes) : p = 0 ∨ 9 ≤ bytes.length := by
  cases h with
  | nil => exact .inl rfl
  | snoc h hrun hlen hf =>
    have := hrun.length_le
    refine .inr ?_
    simp only [groupBytes, List.length_append, List.length_cons]
    omega

theorem CompressedBody.length_le (h : CompressedBody x n bytes) : bytes.length ≤ n + (n + 7) / 8 := by
  cases h with
  | whole h => have := h.cost; omega
  | lastGroup h hrun hmin hmax hf =>
    have := h.cost
    have := hrun.cost
    simp only [groupBytes, List.length_append, List.length_cons]
    omega

theorem CompressedBody.three_le_length (h : CompressedBody x n bytes) (hn : 2 ≤ n) : 3 ≤ bytes.length := by
  cases h with
  | whole h => rcases h.eq_zero_or_long with h0 | hlong <;> omega
  | lastGroup h hrun hmin hmax hf =>
    simp only [groupBytes, List.length_append, List.length_cons]
    rcases h.eq_zero_or_long with rfl | hlong
    · have htwo := hrun.two_le_length hn
      have := hrun.length_le
      omega
    · omega

end

/-! ### The encoder's stream as a list -/

/-- The stream written so far. -/
def State.encoded (s : State) : List Byte := (List.range s.wlen.toNat).map s.encodedByte

theorem State.emit_encoded {bytes : List Byte} {s : State} (h : s.wlen.toNat + bytes.length < 2 ^ 32) :
    (s.emit bytes).encoded = s.encoded ++ bytes := by
  rw [State.encoded, State.emit_wlen_toNat h, List.range_add, List.map_append]
  congr 1
  · exact List.map_congr_left fun a ha => State.emit_encodedByte_of_outside (.inl (List.mem_range.1 ha))
  · refine List.ext_getElem (by simp) fun k _ hk => ?_
    simpa using s.emit_encodedByte_of_inside hk

theorem State.flush_encoded {s : State} (h : s.wlen.toNat + 1 + s.gbuf.length < 2 ^ 32) :
    s.flush.encoded = s.encoded ++ s.gflags :: s.gbuf := by
  have hlist : s.flush.encoded = ((s.emit [s.gflags]).emit s.gbuf).encoded := rfl
  have hwlen : (s.emit [s.gflags]).wlen.toNat = s.wlen.toNat + 1 := State.emit_wlen_toNat (by simp; omega)
  rw [hlist, State.emit_encoded (by omega), State.emit_encoded (by simp; omega), List.append_assoc]
  rfl

/-! ### The encoder writes the grammar -/

/-- The sub-header of an input of length `n` (R181). -/
def subHeader (n : Word) : List Byte := encode (.lzhdr (n.setWidth 24))

/-- The stream and the group hold the tokens of `x[0 .. q)`: whole groups in the stream, the rest in the group. -/
def State.EncodedTo (x : Nat → Byte) (q : Nat) (s : State) : Prop :=
  ∃ bytes p ts, s.encoded = subHeader s.n ++ bytes ∧ WholeGroups x p bytes ∧ TokenRun x p ts q ∧
    ts.length = s.gcount.toNat ∧ s.gbuf = tokenBytes ts ∧ FlagsMark s.gflags ts

section
variable {x : Nat → Byte} {q r : Nat} {t : Instr} {s : State}

/-- A token joins the tokens that are there. -/
theorem State.EncodedTo.join (h : s.EncodedTo x q) (ht : Covers x q t r) (hcount : s.gcount.toNat < 8) :
    (s.join (encode t) (tokenBit t)).EncodedTo x r := by
  obtain ⟨bytes, p, ts, hstream, hgroups, hrun, hlen, hbuf, hflags⟩ := h
  refine ⟨bytes, p, ts ++ [t], hstream, hgroups, hrun.snoc ht, ?_, ?_, hflags.snoc hlen hcount t⟩
  · rw [State.join_gcount_toNat _ _ hcount, List.length_append, hlen]
    rfl
  · rw [tokenBytes_snoc, ← hbuf]
    rfl

@[simp] theorem State.flush_n (s : State) : s.flush.n = s.n := (congrArg State.n s.flush_frame :)

/-- A full group becomes the stream's last whole group. -/
theorem State.EncodedTo.flush (h : s.EncodedTo x q) (hcount : s.gcount.toNat = 8)
    (hroom : s.wlen.toNat + 1 + s.gbuf.length < 2 ^ 32) : s.flush.EncodedTo x q := by
  obtain ⟨bytes, p, ts, hstream, hgroups, hrun, hlen, hbuf, hflags⟩ := h
  refine ⟨bytes ++ groupBytes s.gflags ts, q, [], ?_, hgroups.snoc hrun (hlen.trans hcount) hflags, .nil, rfl, rfl,
    flagsMark_nil⟩
  rw [State.flush_encoded hroom, hstream, State.flush_n, hbuf, List.append_assoc]
  rfl

theorem State.EncodedTo.account (h : s.EncodedTo x q) (ht : Covers x q t r) (hcount : s.gcount.toNat < 8)
    (hroom : s.wlen.toNat + 1 + s.gbuf.length + (encode t).length < 2 ^ 32) :
    (s.account (encode t) (tokenBit t)).EncodedTo x r := by
  have hjoin := h.join ht hcount
  rcases Nat.lt_or_eq_of_le (Nat.le_of_lt_succ hcount) with hlt | heighth
  · rwa [State.account_of_room _ _ hlt]
  · rw [State.account_of_eighth _ _ heighth]
    refine hjoin.flush ((State.join_gcount_toNat _ _ hcount).trans (congrArg Nat.succ heighth)) ?_
    simpa [State.join, ← add_assoc] using hroom

/-- After the final flush the stream is the compressed form. -/
theorem State.EncodedTo.lastFlush (h : s.EncodedTo x q) (hcount : s.gcount.toNat < 8)
    (hroom : s.wlen.toNat + 1 + s.gbuf.length < 2 ^ 32) :
    ∃ body, CompressedBody x q body ∧ s.lastFlush.encoded = subHeader s.n ++ body := by
  obtain ⟨bytes, p, ts, hstream, hgroups, hrun, hlen, hbuf, hflags⟩ := h
  by_cases hempty : s.gcount = 0
  · have hend : p = q := hrun.eq_of_length_eq_zero (hlen.trans (congrArg BitVec.toNat hempty))
    exact ⟨bytes, .whole (hend ▸ hgroups), by rw [State.lastFlush_of_empty hempty, hstream]⟩
  · have hpos : 1 ≤ ts.length := hlen ▸ Nat.pos_of_ne_zero fun h0 => hempty (BitVec.eq_of_toNat_eq h0)
    refine ⟨bytes ++ groupBytes s.gflags ts, .lastGroup hgroups hrun hpos (hlen ▸ hcount) hflags, ?_⟩
    rw [State.lastFlush_of_group hempty, State.flush_encoded hroom, hstream, hbuf, List.append_assoc]
    rfl

end

/-- The detector's result chooses a token that stands for the input from `pos` on (R183 to R185). -/
theorem State.detect_chosen_covers {s : State} (hpos : s.pos.toNat < s.n.toNat) :
    ∃ t, s.detect.chosenToken = encode t ∧ s.detect.choosesRef = tokenBit t ∧
      Covers (s.inp.read .inp) s.pos.toNat t s.detect.nextPos.toNat := by
  obtain ⟨-, hmax, hfound, -⟩ := detectorFindsLongestNearestMatch s hpos
  have hn := s.n.isLt
  rcases Nat.lt_or_ge s.detect.mlen.toNat 3 with hshort | hmatch
  · have hlit : s.detect.choosesRef = false := decide_eq_false (by omega)
    have hnext : s.detect.nextPos.toNat = s.pos.toNat + 1 := by
      rw [State.nextPos, hlit, State.detect_pos, if_neg Bool.false_ne_true, BitVec.toNat_add]
      simp; omega
    refine ⟨.lit (s.inp.read .inp s.pos.toNat), ?_, hlit, ?_⟩
    · rw [State.chosenToken, hlit, State.detect_inp, State.detect_pos]
      rfl
    · rw [hnext]
      exact .literal
  · obtain ⟨hdisp, hwindow, hrepeat⟩ := hfound (by omega)
    have href : s.detect.choosesRef = true := decide_eq_true hmatch
    have hnext : s.detect.nextPos.toNat = s.pos.toNat + s.detect.mlen.toNat := by
      rw [State.nextPos, href, State.detect_pos, if_pos rfl, BitVec.toNat_add, BitVec.toNat_setWidth]
      omega
    refine ⟨refToken s.detect.mlen s.detect.mdisp, ?_, href.trans (tokenBit_refToken _ _).symm, ?_⟩
    · rw [State.chosenToken, href, if_pos rfl]
    · rw [hnext]
      exact .reference _ _ hmatch (by omega) hdisp hwindow hrepeat

theorem State.EncodedTo.searched {x : Nat → Byte} {q : Nat} {s : State} (h : s.EncodedTo x q) :
    s.searched.EncodedTo x q := h

/-- The main loop of compression on the input `x[0 .. n)` (R182). -/
def State.Compressing (x : Nat → Byte) (n : Word) (s : State) : Prop :=
  s.phase = .compress ∧ s.n = n ∧ s.inp.read .inp = x ∧ s.CompressLegal ∧ s.EncodedTo x s.pos.toNat

section
variable {x : Nat → Byte} {n : Word} {s : State}

theorem State.Compressing.phase_eq (h : s.Compressing x n) : s.phase = .compress := by
  obtain ⟨hp, -⟩ := h
  exact hp

theorem State.Compressing.token (h : s.Compressing x n) (hpos : s.pos.toNat < s.n.toNat) :
    s.detect.emitToken.Compressing x n := by
  obtain ⟨hp, hn, rfl, hlegal, hencoded⟩ := h
  obtain ⟨t, htoken, hbit, hcovers⟩ := State.detect_chosen_covers hpos
  have hinp : s.detect.emitToken.inp = s.inp := (congrArg State.inp s.detect_emitToken_frame :)
  refine ⟨s.detect_emitToken_phase.trans hp, s.detect_emitToken_n.trans hn, by rw [hinp], hlegal.token hpos, ?_⟩
  obtain ⟨-, -, hmax, -, hcount, -, -, -, hbound⟩ := hlegal
  have hlength : (encode t).length ≤ 8 := (encode_length_bounds t).2
  unfold Config.maxIn at hmax
  rw [State.detect_emitToken_eq, htoken, hbit, State.account_pos]
  exact hencoded.searched.account hcovers hcount (by show s.wlen.toNat + 1 + s.gbuf.length + _ < _; omega)

/-- At the end of the input the final flush leaves the compressed form of all of it. -/
theorem State.Compressing.lastFlush (h : s.Compressing x n) (hpos : s.n.toNat ≤ s.pos.toNat) :
    ∃ body, CompressedBody x n.toNat body ∧ s.lastFlush.encoded = subHeader n ++ body := by
  obtain ⟨-, rfl, -, hlegal, hencoded⟩ := h
  obtain ⟨-, -, hmax, hle, hcount, -, -, -, hbound⟩ := hlegal
  unfold Config.maxIn at hmax
  rw [le_antisymm hle hpos] at hencoded
  exact hencoded.lastFlush hcount (by omega)

/-- Both compressing commands enter the main loop with the sub-header alone in the stream. -/
theorem State.beforeHeader_emit_compressing (op : BitVec 3) (mode : BitVec 1) (hmin : 2 ≤ s.inLen.toNat)
    (hmax : s.inLen.toNat ≤ 0xFFFFFF) :
    ((s.beforeHeader op mode).emit (subHeader s.inLen)).Compressing (s.inp.read .inp) s.inLen := by
  obtain ⟨hstarted, hcleared, hp, hn, -⟩ := State.beforeHeader_emit_started (s := s) op mode hmax
  obtain ⟨-, -, -, -, -, -, -, hinp, -⟩ := hstarted
  obtain ⟨hpos, hflags, hcount, hbuf⟩ := hcleared
  refine ⟨hp, hn, congrArg _ hinp, State.start_compressLegal op mode hmin hmax, ?_⟩
  have hstream : ((s.beforeHeader op mode).emit (subHeader s.inLen)).encoded = subHeader s.inLen :=
    State.emit_encoded (s := s.beforeHeader op mode) (show 0 + 4 < 2 ^ 32 by decide)
  refine ⟨[], 0, [], ?_, .nil, ?_, ?_, hbuf, ?_⟩
  · rw [hstream, State.emit_n, List.append_nil]
    rfl
  · rw [subHeader, hpos]
    exact .nil
  · rw [subHeader, hcount]
    rfl
  · rw [subHeader, hflags]
    exact flagsMark_nil

end

/-! ### A whole `LZ_ENC` -/

/-- A property that the engine's steps keep holds at the end of a run. -/
theorem RunsTo.preserves {P : State → Prop} (hstep : ∀ s t, engineStep s = .next t → P s → P t) {s t : State}
    (h : RunsTo s t) (hs : P s) : P t := by
  obtain ⟨-, k, rfl⟩ := h
  induction k generalizing s with
  | zero => exact hs
  | succ k ih =>
    obtain ⟨u, hu⟩ := engineStep_next s
    simp only [engineRun, hu]
    exact ih (hstep s u hu hs)

/-- `LZ_ENC` has ended with the compressed form of `x[0 .. n)` in `OUT` (R192). -/
def State.Compressed (x : Nat → Byte) (n : Word) (t : State) : Prop :=
  t.phase = .idle ∧ t.status = 2 ∧
    ∃ body, CompressedBody x n.toNat body ∧ (List.range t.outLen.toNat).map (t.out.read .out) = subHeader n ++ body

theorem State.Compressing.endEncoding {x : Nat → Byte} {n : Word} {s : State} (h : s.Compressing x n)
    (hpos : s.n.toNat ≤ s.pos.toNat) (hop : s.op = opLzEnc) : (s.lastFlush.complete s.lastFlush.wlen).Compressed x n := by
  obtain ⟨body, hbody, hencoded⟩ := h.lastFlush hpos
  refine ⟨rfl, rfl, body, hbody, ?_⟩
  have hout : s.lastFlush.encodedByte = s.lastFlush.out.read .out :=
    funext fun a => if_pos (s.lastFlush_op.trans hop)
  rwa [State.encoded, hout] at hencoded

/-- A run of `LZ_ENC` stays in the main loop until it ends with the compressed form, and then stands still. -/
theorem engineStep_compressed {x : Nat → Byte} {n : Word} {s t : State} (h : engineStep s = .next t)
    (hs : s.op = opLzEnc ∧ s.Compressing x n ∨ s.Compressed x n) :
    t.op = opLzEnc ∧ t.Compressing x n ∨ t.Compressed x n := by
  rcases hs with ⟨hop, hloop⟩ | hdone
  · rw [engineStep_of_compress hloop.phase_eq] at h
    cases h
    rcases Nat.lt_or_ge s.pos.toNat s.n.toNat with hpos | hend
    · rw [State.compressStep_of_token hpos]
      exact .inl ⟨(congrArg State.op s.detect_emitToken_frame :).trans hop, hloop.token hpos⟩
    · rw [State.compressStep_of_end hend]
      rcases s.finishEncoder_cases with ⟨-, e⟩ | ⟨hne, -⟩
      · rw [e]
        exact .inr (hloop.endEncoding hend hop)
      · exact absurd hop hne
  · obtain ⟨hp, -⟩ := id hdone
    rw [(engineStep_move h).eq_of_idle hp]
    exact .inr hdone

/-- `LZ_ENC` of an accepted input ends, and however it is run it ends with the compressed form. -/
theorem execLzEnc_compresses (mode : BitVec 1) {s : State} (hb : s.busy = false) (hmin : 2 ≤ s.inLen.toNat)
    (hmax : s.inLen.toNat ≤ 0xFFFFFF) :
    ∃ u, exec (.lzEnc mode) s = .next u ∧ (∃ t, RunsTo u t) ∧
      ∀ t, RunsTo u t → t.Compressed (s.inp.read .inp) s.inLen := by
  have hexec : exec (.lzEnc mode) s = .next ((s.beforeHeader opLzEnc mode).emit (subHeader s.inLen)) :=
    congrArg Host.Outcome.next
      ((State.startCommand_of_not_busy hb ..).trans (State.startEncoder_start opLzEnc mode hmin hmax))
  have hloop := State.beforeHeader_emit_compressing (s := s) opLzEnc mode hmin hmax
  have hp := hloop.phase_eq
  refine ⟨_, hexec, ?_, fun t ht => ?_⟩
  · have hlegal : ((s.beforeHeader opLzEnc mode).emit (subHeader s.inLen)).EncoderLegal :=
      fun _ => State.start_compressLegal opLzEnc mode hmin hmax
    have hchain : ((s.beforeHeader opLzEnc mode).emit (subHeader s.inLen)).ChainLegal :=
      .of_phase (hp ▸ nofun) (hp ▸ nofun) (hp ▸ nofun)
    obtain ⟨t, ht, -⟩ := exists_runsTo_endOfRun _ hlegal hchain (hp ▸ nofun)
    exact ⟨t, ht⟩
  · obtain ⟨hidle, -⟩ := id ht
    rcases ht.preserves (fun _ _ => engineStep_compressed) (.inl ⟨State.emit_op _ _, hloop⟩) with ⟨-, hrunning⟩ | hdone
    · exact absurd (hrunning.phase_eq.symm.trans hidle) (by decide)
    · exact hdone

/-- Settles O57: the result is a sub-header and a body, whose length the grammar bounds on both sides. -/
theorem compressedSizeIsBounded : Obligations.CompressedSizeIsBounded := by
  intro mode s u t hb hmin hmax hexec ht
  obtain ⟨u', hexec', -, hresult⟩ := execLzEnc_compresses mode hb hmin hmax
  rw [hexec] at hexec'
  cases hexec'
  obtain ⟨-, hstatus, body, hbody, hout⟩ := hresult t ht
  have hlength : t.outLen.toNat = 4 + body.length := by
    simpa [subHeader, encode_length, Instr.length] using congrArg List.length hout
  have hlow := hbody.three_le_length hmin
  have hhigh := hbody.length_le
  exact ⟨hstatus, by omega, by omega⟩

end Sys2Proof.Machine
end

section
/-! The token decoder on a compressed stream: it restores the input (O58). The stream is split at the decoder's cursor into the
bytes that are read and the bytes that are left, and each record of the grammar moves the cursor over its own bytes. -/

namespace Sys2Proof.Machine

/-! ### The stream as a list -/

/-- The stream `S[0 .. ilen)` that the token decoder reads (R23). -/
def State.source (s : State) : List Byte := (List.range s.ilen.toNat).map s.streamByte

@[simp] theorem State.source_length (s : State) : s.source.length = s.ilen.toNat := by simp [State.source]

/-- The window is what is left of the stream, up to 8 bytes. -/
theorem State.streamWindow_eq (s : State) : s.streamWindow = (s.source.drop s.ip.toNat).take 8 := by
  refine List.ext_getElem (by simp [State.avail]) fun k _ _ => ?_
  simp [State.streamWindow, State.source]

/-- The stream is `pre`, which the decoder has read, and `post`, which is left. -/
def State.SplitAt (pre post : List Byte) (s : State) : Prop := s.source = pre ++ post ∧ s.ip.toNat = pre.length

section
variable {pre bytes post : List Byte} {s t : State}

theorem State.SplitAt.ilen (h : s.SplitAt pre post) : s.ilen.toNat = pre.length + post.length := by
  obtain ⟨hsource, -⟩ := h
  rw [← s.source_length, hsource, List.length_append]

theorem State.SplitAt.avail (h : s.SplitAt pre post) : s.avail = post.length := by
  have hilen := h.ilen
  obtain ⟨-, hip⟩ := h
  unfold State.avail
  omega

theorem State.SplitAt.streamWindow (h : s.SplitAt pre post) : s.streamWindow = post.take 8 := by
  obtain ⟨hsource, hip⟩ := h
  rw [State.streamWindow_eq, hsource, hip, List.drop_left]

/-- An instruction at the cursor is decoded (R90): the window holds all of it. -/
theorem State.SplitAt.decode {i : Instr} (h : s.SplitAt pre (encode i ++ post)) (hwf : i.wellFormed = true) :
    decode i.context s.streamWindow = .ok i i.length := by
  obtain ⟨m, hm⟩ := Nat.exists_eq_add_of_le (encode_length_bounds i).2
  rw [h.streamWindow, hm, List.take_length_add_append]
  exact (decodeOfEncodeIsIdentity i _ hwf).1

/-- The cursor moves over the bytes of a record. -/
theorem State.SplitAt.advance (h : s.SplitAt pre (bytes ++ post)) :
    (s.advance bytes.length).SplitAt (pre ++ bytes) post := by
  have havail := h.avail
  have hilen := h.ilen
  obtain ⟨hsource, hip⟩ := h
  rw [List.length_append] at havail hilen
  refine ⟨?_, ?_⟩
  · rw [List.append_assoc]
    exact hsource
  · rw [State.advance_ip_toNat (by omega) (by omega), hip, List.length_append]

/-- Nothing but the stream and the cursor matters. -/
theorem State.SplitAt.of_same (h : s.SplitAt pre post) (hop : t.op = s.op) (hwork : t.work = s.work)
    (hinp : t.inp = s.inp) (hilen : t.ilen = s.ilen) (hip : t.ip = s.ip) : t.SplitAt pre post := by
  have hbyte : t.streamByte = s.streamByte := by
    funext a
    rw [State.streamByte, State.streamByte, hop, hwork, hinp]
  unfold State.SplitAt State.source
  rw [hbyte, hilen, hip]
  exact h

end

/-! ### What the decoder has produced -/

/-- The decoder's output is `x[0 .. p)` of the `n` bytes that are declared, and `HIST` a view of it (R24, R141). -/
def State.Produced (x : Nat → Byte) (n p : Nat) (s : State) : Prop :=
  s.phase = .tokens ∧ s.size.toNat = n ∧ s.olen.toNat = p ∧ s.HistoryView ∧ ∀ a, a < p → s.out.read .out a = x a

section
variable {x : Nat → Byte} {n p : Nat} {s : State}

theorem State.Produced.literal (h : s.Produced x n p) (hroom : p < n) : (s.produce (x p)).Produced x n (p + 1) := by
  obtain ⟨hp, rfl, rfl, hview, hout⟩ := h
  have hsize := s.size.isLt
  have holen : (s.produce (x s.olen.toNat)).olen.toNat = s.olen.toNat + 1 := by
    rw [State.produce_olen, BitVec.toNat_add]
    simp; omega
  refine ⟨hp, rfl, holen, hview.produce _ (by omega), fun a ha => ?_⟩
  rw [State.produce_out, Memory.read_write]
  split
  next hlast => rw [hlast]
  next hne => exact hout a (by omega)

/-- A match `d` bytes back repeats the pattern of the last `d` bytes (R144). -/
theorem match_repeats_pattern {len d : Nat} (hd : 1 ≤ d) (hp : d ≤ p)
    (hmatch : ∀ i, i < len → x (p + i) = x (p - d + i)) (i : Nat) (hi : i < len) :
    x (p + i) = x (p - d + i % d) := by
  induction i using Nat.strong_induction_on with
  | _ i ih =>
    rcases Nat.lt_or_ge i d with hnew | hold
    · rw [Nat.mod_eq_of_lt hnew, hmatch i hi]
    · have hback : p - d + i = p + (i - d) := by omega
      rw [hmatch i hi, hback, ih (i - d) (by omega) (by omega), Nat.mod_eq_sub_mod hold]

/-- A back-reference that stands for the input's next bytes produces them. -/
theorem State.Produced.backReference {k : Nat} {len : BitVec 17} {disp : BitVec 13} (h : s.Produced x n p)
    (ha : k ≤ s.avail) (hroom : p + len.toNat ≤ n) (hdisp : 1 ≤ disp.toNat) (hwindow : disp.toNat ≤ min p 4096)
    (hmatch : ∀ i, i < len.toNat → x (p + i) = x (p - disp.toNat + i)) :
    (s.backReference k len disp).Produced x n (p + len.toNat) := by
  obtain ⟨hp, rfl, rfl, hview, hout⟩ := h
  obtain ⟨hframe, -, -, -, holen, -, hkept, -⟩ := State.backReference_ran (s := s) (disp := disp) len ha (by omega)
  obtain ⟨hview', hpattern⟩ :=
    backReferenceRepeatsPattern k len disp s ha hdisp (by omega) (by omega) (by omega) hview
  have holen' : (s.backReference k len disp).olen.toNat = s.olen.toNat + len.toNat := by omega
  refine ⟨(congrArg State.phase hframe :).trans hp, (congrArg (fun t => t.size.toNat) hframe :), holen', hview',
    fun a ha' => ?_⟩
  rcases Nat.lt_or_ge a s.olen.toNat with hold | hnew
  · rw [hkept a (.inl hold), hout a hold]
  · obtain ⟨i, rfl⟩ := Nat.exists_eq_add_of_le hnew
    have hmod : i % disp.toNat < disp.toNat := Nat.mod_lt _ hdisp
    rw [hpattern i (by omega) (by omega), hout _ (by omega),
      match_repeats_pattern hdisp (by omega) hmatch i (by omega)]

end

/-! ### One record at a time -/

/-- The decoder has read `pre`, has `post` left, and has produced `x[0 .. p)` of `n` bytes. -/
def State.DecodedTo (x : Nat → Byte) (n p : Nat) (pre post : List Byte) (s : State) : Prop :=
  s.SplitAt pre post ∧ s.Produced x n p

theorem exec_refToken {len : BitVec 17} {disp : BitVec 13} (hmin : 3 ≤ len.toNat) (hmax : len.toNat ≤ 65808)
    (hdmin : 1 ≤ disp.toNat) (hdmax : disp.toNat ≤ 4096) (s : State) :
    exec (refToken len disp) s = .next (s.backReference (refToken len disp).length len disp) := by
  obtain ⟨-, hlarge, hmedium, hsmall⟩ := lengthClassChoosesForm len disp hmin hmax hdmin hdmax
  have hform : (∃ v d, refToken len disp = .refL v d ∧ lengthL v = len ∧ displacement d = disp) ∨
      (∃ v d, refToken len disp = .refM v d ∧ lengthM v = len ∧ displacement d = disp) ∨
      ∃ l d, refToken len disp = .refS l d ∧ lengthS l = len ∧ displacement d = disp := by
    by_cases h : 0x110 < len.toNat
    · exact .inl (hlarge h)
    by_cases h' : 0x10 < len.toNat
    · exact .inr (.inl (hmedium h' (Nat.not_lt.1 h)))
    · exact .inr (.inr (hsmall (Nat.not_lt.1 h')))
  rcases hform with ⟨v, d, e, rfl, rfl⟩ | ⟨v, d, e, rfl, rfl⟩ | ⟨l, d, e, rfl, rfl⟩ <;> rw [e] <;> rfl

section
variable {x : Nat → Byte} {n p q : Nat} {pre post : List Byte} {t : Instr} {s : State}

/-- Running a token that stands for the input's next bytes moves the cursor over it and produces these bytes. -/
theorem State.DecodedTo.exec (h : s.DecodedTo x n p pre (encode t ++ post)) (ht : Covers x p t q) (hq : q ≤ n) :
    ∃ e, exec t s = .next e ∧ e.DecodedTo x n q (pre ++ encode t) post ∧ e.flags = s.flags ∧ e.mask = s.mask := by
  obtain ⟨hsplit, hproduced⟩ := h
  have havail : (encode t).length ≤ s.avail := by rw [hsplit.avail, List.length_append]; omega
  have hmoved := hsplit.advance
  cases ht with
  | literal =>
    exact ⟨_, congrArg Host.Outcome.next (State.requireBytes_of_avail _ havail),
      ⟨hmoved.of_same rfl rfl rfl rfl rfl, State.Produced.literal (s := s.advance 1) hproduced hq⟩, rfl, rfl⟩
  | reference len disp hmin hmax hdisp hwindow hmatch =>
    rw [encode_length] at havail hmoved
    obtain ⟨-, -, holen, -⟩ := id hproduced
    obtain ⟨hframe, hip, -⟩ := State.backReference_ran (s := s) (disp := disp) len havail (by omega)
    refine ⟨_, exec_refToken hmin hmax hdisp (by omega) s, ⟨?_, ?_⟩, (congrArg State.flags hframe :),
      (congrArg State.mask hframe :)⟩
    · exact hmoved.of_same (congrArg State.op hframe :) (congrArg State.work hframe :) (congrArg State.inp hframe :)
        (congrArg State.ilen hframe :) hip
    · exact hproduced.backReference havail hq hdisp hwindow hmatch

/-- The step that classifies and runs a token (R133). -/
theorem State.DecodedTo.engineStep_token (h : s.DecodedTo x n p pre (encode t ++ post)) (ht : Covers x p t q)
    (hq : q ≤ n) (hmask : s.mask ≠ 0) (hbit : s.isRef = tokenBit t) :
    ∃ e, engineStep s = .next e ∧ e.DecodedTo x n q (pre ++ encode t) post ∧ e.flags = s.flags ∧
      e.mask = s.mask >>> 1 := by
  have hclassified : s.classified.DecodedTo x n p pre (encode t ++ post) := h
  obtain ⟨e, hexec, hdecoded, hflags, hmask'⟩ := hclassified.exec ht hq
  obtain ⟨hsplit, hp, hsize, holen, -⟩ := h
  have hdecode := hsplit.decode ht.wellFormed
  rw [ht.context, ← hbit] at hdecode
  have hroom := ht.lt
  refine ⟨e, ?_, hdecoded, hflags, hmask'⟩
  rw [engineStep_of_tokens hp, State.tokenStep_of_token (by omega) hmask, hdecode]
  exact hexec

/-- The step that fetches a flag byte (R133). -/
theorem State.DecodedTo.engineStep_flags {f : Byte} (h : s.DecodedTo x n p pre (f :: post)) (hroom : p < n)
    (hmask : s.mask = 0) :
    ∃ e, engineStep s = .next e ∧ e.DecodedTo x n p (pre ++ [f]) post ∧ e.flags = f ∧ e.mask = 0x80 := by
  obtain ⟨hsplit, hproduced⟩ := h
  have hdecode : decode .flags s.streamWindow = .ok (.flags f) 1 :=
    hsplit.decode (i := .flags f) rfl
  have havail : 1 ≤ s.avail := by rw [hsplit.avail, List.length_cons]; omega
  obtain ⟨hp, hsize, holen, -⟩ := id hproduced
  refine ⟨(s.loadFlags f).advance 1, ?_, ⟨?_, hproduced⟩, rfl, rfl⟩
  · rw [engineStep_of_tokens hp, State.tokenStep_of_flags (by omega) hmask, hdecode]
    exact congrArg Host.Outcome.next (State.requireBytes_of_avail _ havail)
  · exact (hsplit.advance (bytes := [f])).of_same rfl rfl rfl rfl rfl

end

/-! ### Runs of the engine -/

/-- The engine gets from `s` to `t` in some number of steps. -/
def EngineReaches : State → State → Prop := Relation.ReflTransGen fun s t => engineStep s = .next t

theorem EngineReaches.runsTo {s t u : State} (h : EngineReaches s t) (hu : RunsTo t u) : RunsTo s u := by
  induction h using Relation.ReflTransGen.head_induction_on with
  | refl => exact hu
  | head hstep _ ih => exact .of_step hstep ih

/-! ### A group -/

/-- The mask of the token at place `i` of a group (R62, R133). -/
def placeMask (i : Nat) : Byte := (0x80 : Byte) >>> i

theorem placeMask_succ (i : Nat) : placeMask i >>> 1 = placeMask (i + 1) := by
  simp [placeMask, BitVec.shiftRight_add]

theorem placeMask_eq_twoPow : ∀ i < 8, placeMask i = BitVec.twoPow 8 (7 - i) := by decide

theorem placeMask_ne_zero : ∀ i < 8, placeMask i ≠ 0 := by decide

/-- The classification reads bit `7 - i` of the flag byte for the token at place `i`. -/
theorem isRef_of_placeMask {s : State} {i : Nat} (hi : i < 8) (hmask : s.mask = placeMask i) :
    s.isRef = s.flags.getLsbD (7 - i) := by
  rw [State.isRef, hmask, placeMask_eq_twoPow i hi, BitVec.and_twoPow]
  have hpow : BitVec.twoPow 8 (7 - i) ≠ 0 := placeMask_eq_twoPow i hi ▸ placeMask_ne_zero i hi
  cases s.flags.getLsbD (7 - i) with
  | false => simp
  | true => simpa using hpow

theorem FlagsMark.getLsbD_eq {f : Byte} {ts : List Instr} (h : FlagsMark f ts) (hlen : ts.length ≤ 8) (i : Nat)
    (hi : i < ts.length) : f.getLsbD (7 - i) = tokenBit ts[i] := by
  rw [h i (by omega), List.getElem?_eq_getElem hi]
  rfl

section
variable {x : Nat → Byte} {n p q : Nat} {pre post : List Byte} {ts : List Instr} {f : Byte} {s : State}

/-- Tokens from the start of a group, under the group's flag byte. -/
theorem State.DecodedTo.run (hrun : TokenRun x p ts q) (h : s.DecodedTo x n p pre (tokenBytes ts ++ post)) (hq : q ≤ n)
    (hlen : ts.length ≤ 8) (hf : ∀ i (hi : i < ts.length), f.getLsbD (7 - i) = tokenBit ts[i]) (hflags : s.flags = f)
    (hmask : s.mask = placeMask 0) :
    ∃ e, EngineReaches s e ∧ e.DecodedTo x n q (pre ++ tokenBytes ts) post ∧ e.flags = f ∧
      e.mask = placeMask ts.length := by
  induction hrun generalizing post with
  | nil => exact ⟨s, .refl, by simpa using h, hflags, hmask⟩
  | @snoc ts q t r hrun ht ih =>
    rw [List.length_append, List.length_singleton] at hlen
    rw [tokenBytes_snoc, List.append_assoc] at h
    have hlt := ht.lt
    obtain ⟨u, hreach, hdecoded, hflags', hmask'⟩ := ih h (by omega) (by omega) fun i hi => by
      rw [hf i (by simp; omega), List.getElem_append_left hi]
    have hbit : u.isRef = tokenBit t := by
      rw [isRef_of_placeMask (by omega) hmask', hflags', hf ts.length (by simp)]
      simp
    obtain ⟨e, hstep, hdecoded', hflags'', hmask''⟩ :=
      hdecoded.engineStep_token ht hq (hmask' ▸ placeMask_ne_zero _ (by omega)) hbit
    refine ⟨e, hreach.tail hstep, ?_, hflags''.trans hflags', ?_⟩
    · rwa [tokenBytes_snoc, ← List.append_assoc]
    · rw [hmask'', hmask', placeMask_succ, List.length_append, List.length_singleton]

/-- A group: its flag byte, then its tokens. -/
theorem State.DecodedTo.group (hrun : TokenRun x p ts q) (h : s.DecodedTo x n p pre (groupBytes f ts ++ post))
    (hq : q ≤ n) (hmin : 1 ≤ ts.length) (hmax : ts.length ≤ 8) (hf : FlagsMark f ts) (hmask : s.mask = 0) :
    ∃ e, EngineReaches s e ∧ e.DecodedTo x n q (pre ++ groupBytes f ts) post ∧ e.mask = placeMask ts.length := by
  have hlength := hrun.add_length_le
  obtain ⟨u, hstep, hdecoded, hflags, hmask'⟩ := h.engineStep_flags (by omega) hmask
  obtain ⟨e, hreach, hdecoded', -, hmask''⟩ := hdecoded.run hrun hq hmax (hf.getLsbD_eq hmax) hflags hmask'
  refine ⟨e, .head hstep hreach, ?_, hmask''⟩
  rwa [List.append_assoc] at hdecoded'

end

/-! ### A whole stream -/

section
variable {x : Nat → Byte} {n p : Nat} {pre bytes post : List Byte} {s : State}

/-- Whole groups: each leaves the flag byte used up. -/
theorem State.DecodedTo.wholeGroups (hgroups : WholeGroups x p bytes) (h : s.DecodedTo x n 0 pre (bytes ++ post))
    (hp : p ≤ n) (hmask : s.mask = 0) :
    ∃ e, EngineReaches s e ∧ e.DecodedTo x n p (pre ++ bytes) post ∧ e.mask = 0 := by
  induction hgroups generalizing post with
  | nil => exact ⟨s, .refl, by simpa using h, hmask⟩
  | @snoc p bytes ts q f hgroups hrun hlen hf ih =>
    have hlength := hrun.add_length_le
    rw [List.append_assoc] at h
    obtain ⟨u, hreach, hdecoded, hmask'⟩ := ih h (by omega)
    obtain ⟨e, hreach', hdecoded', hmask''⟩ := hdecoded.group hrun hp (by omega) hlen.le hf hmask'
    refine ⟨e, hreach.trans hreach', ?_, by rw [hmask'', hlen]; rfl⟩
    rwa [List.append_assoc] at hdecoded'

/-- The body of a compressed stream gives all of its input. -/
theorem State.DecodedTo.body (hbody : CompressedBody x n bytes) (h : s.DecodedTo x n 0 pre (bytes ++ post))
    (hmask : s.mask = 0) : ∃ e, EngineReaches s e ∧ e.DecodedTo x n n (pre ++ bytes) post := by
  cases hbody with
  | whole hgroups =>
    obtain ⟨e, hreach, hdecoded, -⟩ := h.wholeGroups hgroups le_rfl hmask
    exact ⟨e, hreach, hdecoded⟩
  | @lastGroup p bytes ts f hgroups hrun hmin hmax hf =>
    have hlength := hrun.add_length_le
    rw [List.append_assoc] at h
    obtain ⟨u, hreach, hdecoded, hmask'⟩ := h.wholeGroups hgroups (by omega) hmask
    obtain ⟨e, hreach', hdecoded', -⟩ := hdecoded.group hrun le_rfl hmin hmax.le hf hmask'
    refine ⟨e, hreach.trans hreach', ?_⟩
    rwa [List.append_assoc] at hdecoded'

/-- With all of the output there the command ends (R143). -/
theorem State.DecodedTo.ends (h : s.DecodedTo x n n pre post) :
    RunsTo s (s.complete s.size) ∧ ∀ a, a < n → (s.complete s.size).out.read .out a = x a := by
  obtain ⟨-, hp, hsize, holen, -, hout⟩ := h
  refine ⟨.of_step ?_ (.refl rfl), hout⟩
  rw [engineStep_of_tokens hp, State.tokenStep_of_end (by omega)]

end

section
variable {s : State}

/-- The sub-header declares the input's length, and nothing has been produced (R130). -/
theorem State.engineStep_subHeader {n : Word} {post : List Byte} (x : Nat → Byte) (hp : s.phase = .header)
    (hsource : s.source = subHeader n ++ post) (hmin : 2 ≤ n.toNat) (hmax : n.toNat ≤ 0xFFFFFF) :
    ∃ e, engineStep s = .next e ∧ e.DecodedTo x n.toNat 0 (subHeader n) post ∧ e.mask = 0 := by
  have hsize := setWidth_inputLength_toNat hmax
  have hwf : (Instr.lzhdr (n.setWidth 24)).wellFormed = true :=
    decide_eq_true fun h0 => by rw [h0] at hsize; simp at hsize; omega
  have hsplit : s.decoderInit.SplitAt [] (subHeader n ++ post) := ⟨hsource, rfl⟩
  have hdecode : decode .header s.decoderInit.streamWindow = .ok (.lzhdr (n.setWidth 24)) 4 := hsplit.decode hwf
  have hilen : 4 ≤ s.ilen.toNat := by rw [← s.source_length, hsource]; simp [subHeader, encode_length, Instr.length]
  refine ⟨{ s.decoderInit.advance 4 with size := (n.setWidth 24).setWidth 32, phase := .tokens }, ?_, ⟨?_, ?_⟩, rfl⟩
  · rw [engineStep_of_header hp, hdecode]
    exact congrArg Host.Outcome.next (State.declareSize_of_ilen _ hilen)
  · exact hsplit.advance.of_same rfl rfl rfl rfl rfl
  · refine ⟨rfl, ?_, rfl, ⟨rfl, fun k hk => absurd hk (Nat.not_lt_zero k)⟩, fun a ha => absurd ha (Nat.not_lt_zero a)⟩
    show ((n.setWidth 24).setWidth 32).toNat = n.toNat
    rw [BitVec.toNat_setWidth, hsize]
    exact Nat.mod_eq_of_lt n.isLt

/-- The token decoder restores `x[0 .. n)` from a stream that begins with its compressed form, whatever follows (R193). -/
theorem decoder_restores {x : Nat → Byte} {n : Word} {body rest : List Byte} (hbody : CompressedBody x n.toNat body)
    (hp : s.phase = .header) (hsource : s.source = subHeader n ++ (body ++ rest)) (hmin : 2 ≤ n.toNat)
    (hmax : n.toNat ≤ 0xFFFFFF) :
    ∃ t, RunsTo s t ∧ t.status = 2 ∧ t.outLen = n ∧ ∀ a, a < n.toNat → t.out.read .out a = x a := by
  obtain ⟨u, hstep, hdecoded, hmask⟩ := State.engineStep_subHeader x hp hsource hmin hmax
  obtain ⟨e, hreach, hdecoded'⟩ := hdecoded.body hbody hmask
  obtain ⟨hend, hout⟩ := hdecoded'.ends
  obtain ⟨-, -, hsize, -⟩ := hdecoded'
  exact ⟨_, .of_step hstep (hreach.runsTo hend), rfl, BitVec.eq_of_toNat_eq hsize, hout⟩

end

/-- Settles O58: `LZ_ENC` ends with the compressed form, which `LZ_DEC` finds in `IN` as its stream. -/
theorem decompressionInvertsCompression : Obligations.DecompressionInvertsCompression := by
  intro m m' s hb hmin hmax
  obtain ⟨u, hexec, ⟨t, ht⟩, hresult⟩ := execLzEnc_compresses m hb hmin hmax
  obtain ⟨-, hstatus, body, hbody, hout⟩ := hresult t ht
  refine ⟨u, t, hexec, ht, hstatus, fun s' hb' hlen hinp => ?_⟩
  have hstart : exec (.lzDec m') s' = .next ((s'.start opLzDec m').startDecoder s'.inLen) :=
    congrArg _ (State.startCommand_of_not_busy hb' ..)
  have hsource : ((s'.start opLzDec m').startDecoder s'.inLen).source = subHeader s.inLen ++ (body ++ []) := by
    rw [List.append_nil, ← hout, ← hlen]
    exact List.map_congr_left fun a ha => hinp a (hlen ▸ List.mem_range.1 ha)
  obtain ⟨t', hrun, hrest⟩ := decoder_restores hbody rfl hsource hmin hmax
  exact ⟨_, t', hstart, hrun, hrest⟩

end Sys2Proof.Machine
end


section
/-! The XOR cipher engine: one block byte by byte (O45), the key of a seed (O44), and a chain of blocks as one relation between the
plain and the enciphered content, which determines either from the other (O46, O47). -/

namespace Sys2Proof.Machine

/-! ### A word and its bytes (R63, R64) -/

theorem byteOf_xor {w : Nat} (x y : BitVec w) (k : Nat) : byteOf (x ^^^ y) k = byteOf x k ^^^ byteOf y k :=
  BitVec.extractLsb'_xor

/-- The four consecutive bytes from offset `a` on, as a word (R63). -/
def wordAt (f : Nat → Byte) (a : Nat) : Word := le32 (f a) (f (a + 1)) (f (a + 2)) (f (a + 3))

theorem Memory.readWord_eq_wordAt (sp : Config.Space) (m : Memory) (a : Nat) : m.readWord sp a = wordAt (m.read sp) a := rfl

theorem byteOf_wordAt (f : Nat → Byte) (a : Nat) {i : Nat} (hi : i < 4) : byteOf (wordAt f a) i = f (a + i) := by
  obtain ⟨h0, h1, h2, h3⟩ := byteOf_le32 (f a) (f (a + 1)) (f (a + 2)) (f (a + 3))
  match i, hi with
  | 0, _ => exact h0
  | 1, _ => exact h1
  | 2, _ => exact h2
  | 3, _ => exact h3

/-- A word depends on its four bytes only. -/
theorem wordAt_congr {f g : Nat → Byte} {a : Nat} (h : ∀ i < 4, f (a + i) = g (a + i)) : wordAt f a = wordAt g a := by
  have h0 : f a = g a := h 0 (by decide)
  rw [wordAt, wordAt, h0, h 1 (by decide), h 2 (by decide), h 3 (by decide)]

section
variable (sp : Config.Space) (m : Memory) (a : Nat) (x : Word)

theorem Memory.read_writeWord_inside {i : Nat} (hi : i < 4) : (m.writeWord a x).read sp (a + i) = byteOf x i := by
  rw [Memory.writeWord, Memory.read_writeAll, dif_pos ⟨Nat.le_add_right a i, Nat.add_lt_add_left hi a⟩]
  match i, hi with
  | 0, _ | 1, _ | 2, _ | 3, _ => simp [bytesLE32]

theorem Memory.read_writeWord_outside {a' : Nat} (h : a' < a ∨ a + 4 ≤ a') :
    (m.writeWord a x).read sp a' = m.read sp a' :=
  Memory.read_writeAll_outside sp (bytesLE32 x) m h

/-- A word reads back as it was written. -/
theorem Memory.wordAt_writeWord : wordAt ((m.writeWord a x).read sp) a = x := by
  have h (i : Nat) (hi : i < 4) : (m.writeWord a x).read sp (a + i) = byteOf x i := Memory.read_writeWord_inside sp m a x hi
  have h0 : (m.writeWord a x).read sp a = byteOf x 0 := h 0 (by decide)
  rw [wordAt, h0, h 1 (by decide), h 2 (by decide), h 3 (by decide), le32_byteOf]

end

/-! ### One block (R201, R203, R206, R210) -/

/-- Either chain replaces the block at `xp` by its XOR with the key, which acts byte by byte. -/
theorem Memory.read_xorBlock (m : Memory) (a : Nat) (key : Word) {i : Nat} (hi : i < 4) :
    (m.writeWord a (m.readWord .work a ^^^ key)).read .work (a + i) = m.read .work (a + i) ^^^ byteOf key i := by
  rw [Memory.read_writeWord_inside _ _ _ _ hi, byteOf_xor, Memory.readWord_eq_wordAt, byteOf_wordAt _ _ hi]

theorem engineStep_of_encipher {s : State} (h : s.phase = .encipher) : engineStep s = .next s.encipherStep := by
  simp [engineStep, h]

/-- Settles O45: a step with a block left is the block's; the block's bytes, and the key's, are those of the words. -/
theorem chainBlockTransformsFourBytes : Obligations.ChainBlockTransformsFourBytes := by
  intro s
  refine ⟨fun hturns hx => ⟨fun hp => ?_, fun hp => ?_⟩, ?_, ?_⟩
  · rw [step_of_no_turns hturns, engineStep_of_decipher hp, State.decipherStep, if_pos hx]
  · rw [step_of_no_turns hturns, engineStep_of_encipher hp, State.encipherStep, if_pos hx]
  · refine ⟨rfl, rfl, fun i hi => ⟨Memory.read_xorBlock _ _ _ hi, ?_⟩, fun a => Memory.read_writeWord_outside _ _ _ _⟩
    rw [State.decipherBlock_key, byteOf_xor, State.decipherBlock_work, Memory.read_writeWord_inside _ _ _ _ hi]
  · refine ⟨rfl, rfl, fun i hi => ⟨Memory.read_xorBlock _ _ _ hi, ?_⟩, fun a => Memory.read_writeWord_outside _ _ _ _⟩
    rw [State.encipherBlock_key, State.encipherBlock_work, Memory.read_writeWord_inside _ _ _ _ hi]

/-- Settles O44: a 24-bit seed keeps its value as a word, and the product of words is the product modulo `2 ^ 32`. -/
theorem keyOfSeed : Obligations.KeyOfSeed := by
  intro seed
  have hseed : (seed.setWidth 32).toNat = seed.toNat := by rw [BitVec.toNat_setWidth]; omega
  have hmult : Config.keyMult.toNat = 0x8083 := rfl
  rw [initialKey, BitVec.toNat_mul, hseed, hmult]

/-! ### A chain of blocks -/

/-- The keystream of R202: the key of block 0, then each time the enciphered block before. -/
def chainKey (start : Nat) (key : Word) (cipher : Nat → Byte) : Nat → Word
  | 0 => key
  | j + 1 => wordAt cipher (start + 4 * j)

/-- `cipher` is `plain` with `m` blocks from `start` on enciphered (R202, R206): each block is XORed with its key of the
keystream, and every other byte is the same. -/
def Enciphered (start : Nat) (key : Word) (m : Nat) (plain cipher : Nat → Byte) : Prop :=
  (∀ j < m, wordAt cipher (start + 4 * j) = wordAt plain (start + 4 * j) ^^^ chainKey start key cipher j) ∧
    ∀ a, a < start ∨ start + 4 * m ≤ a → cipher a = plain a

section
variable {start m : Nat} {key : Word} {plain cipher plain' cipher' : Nat → Byte}

theorem chainKey_congr {j : Nat} (h : ∀ a < start + 4 * j, cipher a = cipher' a) :
    chainKey start key cipher j = chainKey start key cipher' j := by
  cases j with
  | zero => rfl
  | succ j => exact wordAt_congr fun i hi => h _ (by omega)

theorem Enciphered.zero : Enciphered start key 0 plain plain := ⟨nofun, fun _ _ => rfl⟩

/-- A chain goes on with one block: contents that change nowhere but in block `m`, whose words there are related by its key. -/
theorem Enciphered.succ (h : Enciphered start key m plain cipher)
    (hplain : ∀ a, a < start + 4 * m ∨ start + 4 * m + 4 ≤ a → plain' a = plain a)
    (hcipher : ∀ a, a < start + 4 * m ∨ start + 4 * m + 4 ≤ a → cipher' a = cipher a)
    (hblock : wordAt cipher' (start + 4 * m) = wordAt plain' (start + 4 * m) ^^^ chainKey start key cipher m) :
    Enciphered start key (m + 1) plain' cipher' := by
  obtain ⟨hblocks, hrest⟩ := h
  have hkey (j : Nat) (hj : j ≤ m) : chainKey start key cipher' j = chainKey start key cipher j :=
    chainKey_congr fun a ha => hcipher a (by omega)
  refine ⟨fun j hj => ?_, fun a ha => ?_⟩
  · rw [hkey j (by omega)]
    rcases Nat.lt_succ_iff_lt_or_eq.1 hj with hold | rfl
    · rw [wordAt_congr fun i hi => hcipher (start + 4 * j + i) (by omega),
        wordAt_congr fun i hi => hplain (start + 4 * j + i) (by omega)]
      exact hblocks j hold
    · exact hblock
  · rw [hcipher a (by omega), hplain a (by omega)]
    exact hrest a (by omega)

/-- The content past the chain's last block has not been transformed yet. -/
theorem Enciphered.next_block (h : Enciphered start key m plain cipher) :
    wordAt cipher (start + 4 * m) = wordAt plain (start + 4 * m) := by
  obtain ⟨-, hrest⟩ := h
  exact wordAt_congr fun i _ => hrest _ (by omega)

/-- Contents that agree outside a region and on each of its blocks are the same. -/
theorem eq_of_blocks {f g : Nat → Byte} (hblocks : ∀ j < m, wordAt f (start + 4 * j) = wordAt g (start + 4 * j))
    (hrest : ∀ a, a < start ∨ start + 4 * m ≤ a → f a = g a) : f = g := by
  funext a
  by_cases ha : a < start ∨ start + 4 * m ≤ a
  · exact hrest a ha
  · have hi : (a - start) % 4 < 4 := Nat.mod_lt _ (by decide)
    have hplace : start + 4 * ((a - start) / 4) + (a - start) % 4 = a := by omega
    have hword := congrArg (byteOf · ((a - start) % 4)) (hblocks ((a - start) / 4) (by omega))
    simpa only [byteOf_wordAt _ _ hi, hplace] using hword

/-- The enciphered content determines the plain one: the keystream is in it (R204). -/
theorem Enciphered.plain_unique (h : Enciphered start key m plain cipher) (h' : Enciphered start key m plain' cipher) :
    plain = plain' := by
  obtain ⟨hblocks, hrest⟩ := h
  obtain ⟨hblocks', hrest'⟩ := h'
  refine eq_of_blocks (fun j hj => ?_) fun a ha => (hrest a ha).symm.trans (hrest' a ha)
  exact (BitVec.xor_left_inj _).1 ((hblocks j hj).symm.trans (hblocks' j hj))

/-- The plain content determines the enciphered one, by induction on the block: each key is the block before. -/
theorem Enciphered.cipher_unique (h : Enciphered start key m plain cipher) (h' : Enciphered start key m plain cipher') :
    cipher = cipher' := by
  obtain ⟨hblocks, hrest⟩ := h
  obtain ⟨hblocks', hrest'⟩ := h'
  refine eq_of_blocks (fun j hj => ?_) fun a ha => (hrest a ha).trans (hrest' a ha).symm
  induction j with
  | zero => rw [hblocks 0 hj, hblocks' 0 hj]; rfl
  | succ j ih => rw [hblocks (j + 1) hj, hblocks' (j + 1) hj, chainKey, chainKey, ih (by omega)]

end

/-! ### What the two chains compute -/

/-- Where a chain stands after `m` blocks: past them, with the key of the next one. -/
def State.AtBlock (s : State) (m : Nat) (cipher : Nat → Byte) (t : State) : Prop :=
  t.xp.toNat = s.xp.toNat + 4 * m ∧ t.key = chainKey s.xp.toNat s.key cipher m

theorem chainCursor_next {x : Word} {a m : Nat} (h : x.toNat = a + 4 * m) (hm : a + 4 * (m + 1) < 2 ^ 32) :
    (x + 4).toNat = a + 4 * (m + 1) := by
  have hfour : (4 : Word).toNat = 4 := rfl
  rw [BitVec.toNat_add, hfour]
  omega

section
variable {m : Nat} {s : State}

/-- Enciphering `m` blocks (R206). -/
theorem State.iterate_encipherBlock (h : s.xp.toNat + 4 * m < 2 ^ 32) :
    let t := State.encipherBlock^[m] s
    Enciphered s.xp.toNat s.key m (s.work.read .work) (t.work.read .work) ∧ s.AtBlock m (t.work.read .work) t := by
  induction m with
  | zero => exact ⟨.zero, rfl, rfl⟩
  | succ m ih =>
    obtain ⟨hchain, hxp, hkey⟩ := ih (by omega)
    rw [Function.iterate_succ_apply']
    generalize State.encipherBlock^[m] s = t at hchain hxp hkey ⊢
    have hword : wordAt (t.encipherBlock.work.read .work) (s.xp.toNat + 4 * m) = t.encipherBlock.key := by
      rw [← hxp]; exact Memory.wordAt_writeWord ..
    refine ⟨hchain.succ (fun _ _ => rfl) (fun a ha => ?_) ?_, chainCursor_next hxp h, hword.symm⟩
    · exact Memory.read_writeWord_outside _ _ _ _ (hxp ▸ ha)
    · rw [hword, State.encipherBlock_key, hkey, Memory.readWord_eq_wordAt, hxp, hchain.next_block]

/-- Deciphering `m` blocks (R203): the key becomes the enciphered block (R312). -/
theorem State.iterate_decipherBlock (h : s.xp.toNat + 4 * m < 2 ^ 32) :
    let t := State.decipherBlock^[m] s
    Enciphered s.xp.toNat s.key m (t.work.read .work) (s.work.read .work) ∧ s.AtBlock m (s.work.read .work) t := by
  induction m with
  | zero => exact ⟨.zero, rfl, rfl⟩
  | succ m ih =>
    obtain ⟨hchain, hxp, hkey⟩ := ih (by omega)
    rw [Function.iterate_succ_apply']
    generalize State.decipherBlock^[m] s = t at hchain hxp hkey ⊢
    have hread : t.work.readWord .work t.xp.toNat = wordAt (s.work.read .work) (s.xp.toNat + 4 * m) := by
      rw [Memory.readWord_eq_wordAt, hxp, hchain.next_block]
    have hword : wordAt (t.decipherBlock.work.read .work) (s.xp.toNat + 4 * m) =
        wordAt (s.work.read .work) (s.xp.toNat + 4 * m) ^^^ t.key := by
      rw [← hread, ← hxp]; exact Memory.wordAt_writeWord ..
    refine ⟨hchain.succ (fun a ha => ?_) (fun _ _ => rfl) ?_, chainCursor_next hxp h, ?_⟩
    · exact Memory.read_writeWord_outside _ _ _ _ (hxp ▸ ha)
    · rw [hword, ← hkey, xor_cancel_right]
    · rw [State.decipherBlock_key, hread, chainKey, xor_xor_cancel_comm_assoc]

end

/-- Settles O47: both chains relate the same plain and enciphered content, and each of the two determines the other. -/
theorem chainsAreInverse : Obligations.ChainsAreInverse := by
  intro m s t hbound hxp hkey
  have hbound' : t.xp.toNat + 4 * m < 2 ^ 32 := hxp ▸ hbound
  obtain ⟨hencS, -⟩ := State.iterate_encipherBlock hbound
  obtain ⟨hdecS, -⟩ := State.iterate_decipherBlock hbound
  obtain ⟨hencT, -⟩ := State.iterate_encipherBlock hbound'
  obtain ⟨hdecT, -⟩ := State.iterate_decipherBlock hbound'
  rw [hxp, hkey] at hencT hdecT
  refine ⟨fun hwork => congrFun ?_, fun hwork => congrFun ?_⟩
  · rw [funext hwork] at hdecT
    exact hdecT.plain_unique hencS
  · rw [funext hwork] at hencT
    exact hencT.cipher_unique hdecS

/-- Settles O46: the plain block is the enciphered one XOR its key of the keystream, which the enciphered content holds. -/
theorem decipheringNeedsNoRunningKey : Obligations.DecipheringNeedsNoRunningKey := by
  intro m s hbound t
  obtain ⟨⟨hblocks, -⟩, -⟩ := State.iterate_decipherBlock hbound
  have hplain (j : Nat) (hj : j < m) : t.work.readWord .work (s.xp.toNat + 4 * j) =
      s.work.readWord .work (s.xp.toNat + 4 * j) ^^^ chainKey s.xp.toNat s.key (s.work.read .work) j := by
    rw [Memory.readWord_eq_wordAt, Memory.readWord_eq_wordAt, hblocks j hj, xor_cancel_right]
  refine ⟨fun hm => hplain 0 hm, fun j hmin hj => ?_⟩
  obtain ⟨i, rfl⟩ := Nat.exists_eq_add_of_le' hmin
  exact hplain (i + 1) hj

end Sys2Proof.Machine
end

section
/-! The container's XOR region: a valid archive loads `WORK` and starts the deciphering chain (O20, O21), and the body of `CT_ENC`
is padded and its enciphering chain starts (O48). -/

namespace Sys2Proof.Machine

/-! ### The archive is opened (R221 to R224, R227) -/

section
variable {s : State} (tag : Byte) (seed : BitVec 24)

theorem State.openArchive_of_header (f : State → State) (h : 4 ≤ s.ilenCmd.toNat) :
    s.openArchive tag seed f = f (s.opened tag seed) :=
  if_neg (Nat.not_lt.2 h)

theorem State.opened_blen_toNat (h : 4 ≤ s.ilenCmd.toNat) : (s.opened tag seed).blen.toNat = s.ilenCmd.toNat - 4 :=
  BitVec.toNat_sub_of_le (BitVec.le_def.2 h)

theorem State.opened_read_work_inside {a : Nat} (h : a < s.ilenCmd.toNat - 4) :
    (s.opened tag seed).work.read .work a = s.inp.read .inp (4 + a) := by
  rw [State.opened, Memory.read_copyFrom, if_pos (by omega), Nat.sub_zero]

theorem State.opened_read_work_outside {a : Nat} (h : s.ilenCmd.toNat - 4 ≤ a) :
    (s.opened tag seed).work.read .work a = s.work.read .work a := by
  rw [State.opened, Memory.read_copyFrom, if_neg (by omega)]

end

theorem State.startDecipher_of_blocks {s : State} (h : s.blen.toNat % 4 = 0) :
    s.startDecipher = { s.startChain with phase := .decipher } :=
  if_neg (not_not.2 h)

/-- An archive that has been opened with whole blocks after its header goes to the deciphering chain (R224, R227). -/
def State.ArchiveOpened (tag : Byte) (seed : BitVec 24) (s t : State) : Prop :=
  { t with tag := s.tag, seed := s.seed, blen := s.blen, work := s.work, xp := s.xp, key := s.key, phase := s.phase } = s ∧
    t.tag = tag ∧ t.seed = seed ∧ t.blen.toNat = s.ilenCmd.toNat - 4 ∧ t.xp = regionStart tag ∧
    t.key.toNat = (0x8083 * seed.toNat) % 2 ^ 32 ∧ t.phase = .decipher ∧
    (∀ a, a < s.ilenCmd.toNat - 4 → t.work.read .work a = s.inp.read .inp (4 + a)) ∧
    (∀ a, s.ilenCmd.toNat - 4 ≤ a → t.work.read .work a = s.work.read .work a)

theorem State.opened_startDecipher {s : State} (tag : Byte) (seed : BitVec 24) (hlen : 4 ≤ s.ilenCmd.toNat)
    (hblocks : (s.ilenCmd.toNat - 4) % 4 = 0) : s.ArchiveOpened tag seed (s.opened tag seed).startDecipher := by
  have hblen := State.opened_blen_toNat tag seed hlen
  rw [State.startDecipher_of_blocks (hblen.symm ▸ hblocks)]
  exact ⟨rfl, rfl, rfl, hblen, rfl, keyOfSeed seed, rfl, fun _ => State.opened_read_work_inside tag seed,
    fun _ => State.opened_read_work_outside tag seed⟩

/-- Settles O20: the archive has its header and, at payload offset 0, the magic. -/
theorem compressedArchiveOpens : Obligations.CompressedArchiveOpens := by
  intro seed s hlen hblocks hmagic
  have hblen := State.opened_blen_toNat (s := s) Config.tagLz seed (by omega)
  have hread : (s.opened Config.tagLz seed).work.read .work 0 = Config.lzMagic :=
    (State.opened_read_work_inside Config.tagLz seed (by omega)).trans hmagic
  have hexec : exec (.env17 seed) s = .next (s.opened Config.tagLz seed).startDecipher := by
    refine congrArg Host.Outcome.next ((State.openArchive_of_header _ _ _ (by omega)).trans (if_neg ?_))
    rintro (hshort | hwrong)
    · omega
    · exact hwrong hread
  exact ⟨_, hexec, State.opened_startDecipher Config.tagLz seed (by omega) hblocks⟩

/-- Settles O21: the archive has its header, and the seed is the payload's length. -/
theorem rawArchiveOpens : Obligations.RawArchiveOpens := by
  intro seed s hlen hblocks hseed
  have hblen := State.opened_blen_toNat (s := s) Config.tagRaw seed hlen
  have hexec : exec (.env04 seed) s = .next (s.opened Config.tagRaw seed).startDecipher :=
    congrArg Host.Outcome.next ((State.openArchive_of_header _ _ _ hlen).trans
      (if_neg (not_not.2 (hseed.trans hblen.symm))))
  exact ⟨_, hexec, State.opened_startDecipher Config.tagRaw seed hlen hblocks⟩

/-! ### The body is padded (R229 to R231) -/

theorem engineStep_of_pad {s : State} (h : s.phase = .pad) : engineStep s = .next s.padStep := by
  simp [engineStep, h]

/-- Padding does not overflow the length register, whatever the mode and the body (R196). -/
theorem State.padStep_blen_toNat {s : State} (h : s.blen.toNat < 2 ^ 25) :
    s.padStep.blen.toNat = s.blen.toNat + padCount s.blen.toNat := by
  have hpad := padCount_lt s.blen.toNat
  have hblen : s.padStep.blen = s.blen + BitVec.ofNat 32 (padCount s.blen.toNat) := rfl
  rw [hblen, BitVec.toNat_add, BitVec.toNat_ofNat]
  omega

theorem State.padStep_read_work (s : State) (a : Nat) :
    s.padStep.work.read .work a =
      if s.blen.toNat ≤ a ∧ a < s.blen.toNat + padCount s.blen.toNat then 0 else s.work.read .work a := by
  have hwork : s.padStep.work = s.work.writeAll s.blen.toNat (List.replicate (padCount s.blen.toNat) 0) := rfl
  rw [hwork, Memory.read_writeAll]
  simp only [List.length_replicate, List.getElem_replicate, dite_eq_ite]

theorem State.padStep_tag (s : State) : s.padStep.tag = if s.mode = 1 then Config.tagLz else Config.tagRaw := rfl

theorem State.padStep_xp (s : State) : s.padStep.xp = regionStart s.padStep.tag := rfl

theorem State.padStep_key (s : State) : s.padStep.key = initialKey (s.ilenCmd.setWidth 24) := rfl

/-- Settles O48: the pad bytes lie between the old length and the new, and the chain starts with the mode's tag and the seed. -/
theorem bodyIsPaddedAndKeyed : Obligations.BodyIsPaddedAndKeyed := by
  intro s hturns hp hblen hlen
  have hstep : step s = .next s.padStep := by rw [step_of_no_turns hturns, engineStep_of_pad hp]
  have hblen' := State.padStep_blen_toNat hblen
  have hpad := padCount_lt s.blen.toNat
  have hseed : (s.ilenCmd.setWidth 24).toNat = s.ilenCmd.toNat := setWidth_inputLength_toNat hlen
  refine ⟨_, hstep, rfl, rfl, ?_, by omega, by omega, fun a hmin hmax => ?_, fun a ha => ?_, hseed, fun hm => ?_,
    fun hm => ?_, ?_⟩
  · rw [hblen']; exact add_padCount_mod _
  · rw [State.padStep_read_work, if_pos (by omega)]
  · rw [State.padStep_read_work, if_neg (by omega)]
  · rw [State.padStep_xp, State.padStep_tag, hm]; exact ⟨rfl, rfl⟩
  · rw [State.padStep_xp, State.padStep_tag, hm]; exact ⟨rfl, rfl⟩
  · rw [State.padStep_key, keyOfSeed, hseed]

end Sys2Proof.Machine
end

section
/-! The container's edges: an unknown tag ends `CT_DEC` (O22), `CT_ENC` raw takes the payload as its body (O28), and the archive
is the header and the body (O49). -/

namespace Sys2Proof.Machine

/-! ### An unknown tag (R235) -/

theorem decodeEnvelope_of_unknown {tag : Byte} (seed : BitVec 24) (hlz : tag ≠ Config.tagLz) (hraw : tag ≠ Config.tagRaw) :
    decodeEnvelope tag seed = .envUnknown tag seed :=
  (if_neg hlz).trans (if_neg hraw)

/-- Settles O22: too short for a header or not, the archive is invalid. -/
theorem unknownTagRaisesInvalidArchive : Obligations.UnknownTagRaisesInvalidArchive := by
  intro tag seed s hlz hraw
  refine ⟨decodeEnvelope_of_unknown seed hlz hraw, _, rfl, ?_⟩
  rcases s.openArchive_cases tag seed _ with ⟨-, e⟩ | ⟨-, e⟩
  · rw [e]
    exact State.raise_endedBy _ rfl rfl
  · rw [e]
    exact State.raise_endedBy _ rfl rfl

/-! ### A raw body (R228, R233) -/

/-- Settles O28: the latched length is accepted, so the payload is copied to `WORK`. -/
theorem rawEncodingStarts : Obligations.RawEncodingStarts := by
  intro s hb hmax
  have hexec : exec .ctEncRaw s = .next (s.start opCtEnc 0).loadRaw :=
    congrArg Host.Outcome.next (State.startCommand_of_not_busy hb ..)
  obtain ⟨hstarted, -⟩ := s.start_started opCtEnc 0
  rw [State.loadRaw_of_accepted (s := s.start opCtEnc 0) hmax] at hexec
  refine ⟨_, hexec, hstarted, rfl, rfl, fun a ha => ?_⟩
  have hlatched : (s.start opCtEnc 0).ilenCmd = s.inLen := rfl
  rw [Memory.read_copyFrom, hlatched, if_pos (by omega), Nat.sub_zero, Nat.zero_add]
  rfl

/-! ### The archive's layout (R230, R232) -/

section
variable {s : State}

theorem State.headerBytes_eq (h : s.tag = Config.tagLz ∨ s.tag = Config.tagRaw) :
    s.headerBytes = s.tag :: bytesLE24 s.seed := by
  rcases h with h | h
  · rw [State.headerBytes, if_pos h, h]
    rfl
  · rw [State.headerBytes, if_neg (h ▸ by decide), h]
    rfl

/-- The header goes out before the body, which leaves its 4 bytes alone. -/
theorem State.returnArchive_read_header (h : s.tag = Config.tagLz ∨ s.tag = Config.tagRaw) {k : Nat} (hk : k < 4) :
    s.returnArchive.out.read .out k = (s.tag :: bytesLE24 s.seed)[k]'hk := by
  rw [State.returnArchive, State.complete_out, Memory.read_copyFrom, if_neg (by omega), Memory.read_writeAll]
  simp only [State.headerBytes_eq h]
  exact dif_pos ⟨Nat.zero_le k, by simpa [bytesLE24] using hk⟩

theorem State.returnArchive_read_seed (h : s.tag = Config.tagLz ∨ s.tag = Config.tagRaw) {k : Nat} (hk : k < 3) :
    s.returnArchive.out.read .out (1 + k) = byteOf s.seed k := by
  rw [State.returnArchive_read_header h (by omega)]
  match k, hk with
  | 0, _ | 1, _ | 2, _ => rfl

theorem State.returnArchive_read_body {a : Nat} (ha : a < s.blen.toNat) :
    s.returnArchive.out.read .out (4 + a) = s.work.read .work a := by
  rw [State.returnArchive, State.complete_out, Memory.read_copyFrom, if_pos (by omega)]
  simp

theorem State.returnArchive_outLen (h : s.blen.toNat < 2 ^ 32 - 4) : s.returnArchive.outLen.toNat = 4 + s.blen.toNat := by
  have hfour : (4 : Word).toNat = 4 := rfl
  rw [State.returnArchive, State.complete_outLen, BitVec.toNat_add, hfour]
  omega

theorem State.encipherStep_of_end (h : s.blen.toNat ≤ s.xp.toNat) : s.encipherStep = s.returnArchive :=
  if_neg (Nat.not_lt.2 h)

theorem State.encipherStep_of_block (h : s.xp.toNat < s.blen.toNat) : s.encipherStep = s.encipherBlock :=
  if_pos h

theorem State.decipherStep_of_block (h : s.xp.toNat < s.blen.toNat) : s.decipherStep = s.decipherBlock :=
  if_pos h

end

/-- Settles O49: the last step of the chain lays out the archive, whose length does not overflow its register. -/
theorem archiveIsHeaderAndBody : Obligations.ArchiveIsHeaderAndBody := by
  intro s hturns hp hx hblen htag
  have hstep : step s = .next s.returnArchive := by
    rw [step_of_no_turns hturns, engineStep_of_encipher hp, State.encipherStep_of_end hx]
  have hend : s.returnArchive.Succeeded s.returnArchive.outLen.toNat := State.complete_succeeded _ _
  rw [State.returnArchive_outLen hblen] at hend
  refine ⟨_, hstep, hend, rfl, State.returnArchive_read_header htag (by decide), fun k hk => ?_,
    fun _ => State.returnArchive_read_body⟩
  rw [State.returnArchive_read_seed htag hk, byteOf_toNat, Nat.pow_mul]

end Sys2Proof.Machine
end

section
/-! The container's round trips (O59, O60). `IsArchive` says what an archive is, apart from any run: `CT_ENC` ends with the archive
of its padded body, and `CT_DEC` of an archive gets back to the body that it is the archive of. -/

namespace Sys2Proof.Machine

/-! ### The archive as data (R230 to R232) -/

/-- `a[0 .. alen)` is the archive of the body `plain[0 .. b)`: the header in clear, then the body, enciphered from the tag's offset
on with the key of the seed. -/
structure IsArchive (tag : Byte) (seed : BitVec 24) (plain : Nat → Byte) (b alen : Nat) (a : Nat → Byte) : Prop where
  length : alen = 4 + b
  tag_byte : a 0 = tag
  seed_byte : ∀ k < 3, a (1 + k) = byteOf seed k
  region : ∃ m cipher, (regionStart tag).toNat + 4 * m = b ∧
    Enciphered (regionStart tag).toNat (initialKey seed) m plain cipher ∧ ∀ k < b, a (4 + k) = cipher k

section
variable {tag : Byte} {seed : BitVec 24} {plain a a' : Nat → Byte} {b alen : Nat}

theorem IsArchive.congr (h : IsArchive tag seed plain b alen a) (ha : ∀ k < alen, a' k = a k) :
    IsArchive tag seed plain b alen a' := by
  obtain ⟨hlen, htag, hseed, m, cipher, hm, hchain, hbody⟩ := h
  exact ⟨hlen, (ha 0 (by omega)).trans htag, fun k hk => (ha _ (by omega)).trans (hseed k hk), m, cipher, hm, hchain,
    fun k hk => (ha _ (by omega)).trans (hbody k hk)⟩

theorem IsArchive.whole_blocks (h : IsArchive tag seed plain b alen a) : b % 4 = 0 := by
  obtain ⟨m, -, hm, -⟩ := h.region
  rw [regionStart_toNat] at hm
  split at hm <;> omega

/-- The bytes before the region stand in clear (R208). -/
theorem IsArchive.read_clear (h : IsArchive tag seed plain b alen a) {k : Nat} (hk : k < (regionStart tag).toNat) :
    a (4 + k) = plain k := by
  obtain ⟨m, cipher, hm, ⟨-, hclear⟩, hbody⟩ := h.region
  rw [hbody k (by omega), hclear k (.inl hk)]

end

/-- The content of `f` below `n`, and of `g` from `n` on. -/
def spliced (n : Nat) (f g : Nat → Byte) (a : Nat) : Byte := if a < n then f a else g a

theorem spliced_of_lt {n a : Nat} (f g : Nat → Byte) (h : a < n) : spliced n f g a = f a := if_pos h

theorem spliced_of_le {n a : Nat} (f g : Nat → Byte) (h : n ≤ a) : spliced n f g a = g a := if_neg (Nat.not_lt.2 h)

section
variable {start m : Nat} {key : Word} {plain cipher plain' cipher' : Nat → Byte}

/-- Past the region the contents do not matter, as long as the plain and the enciphered one are the same there. -/
theorem Enciphered.splice (h : Enciphered start key m plain cipher) (hc : ∀ a < start + 4 * m, cipher' a = cipher a) :
    Enciphered start key m (spliced (start + 4 * m) plain cipher') cipher' := by
  obtain ⟨hblocks, hrest⟩ := h
  refine ⟨fun j hj => ?_, fun a ha => ?_⟩
  · have hplain : wordAt (spliced (start + 4 * m) plain cipher') (start + 4 * j) = wordAt plain (start + 4 * j) :=
      wordAt_congr fun i hi => spliced_of_lt _ _ (by omega)
    rw [hplain, chainKey_congr fun a ha => hc a (by omega), wordAt_congr fun i hi => hc _ (by omega)]
    exact hblocks j hj
  · rcases Nat.lt_or_ge a (start + 4 * m) with hin | hout
    · rw [spliced_of_lt _ _ hin, hc a hin, hrest a ha]
    · rw [spliced_of_le _ _ hout]

/-- What is read of the enciphered content up to the region's end fixes the plain one there. -/
theorem Enciphered.plain_eq_below (h : Enciphered start key m plain cipher) (h' : Enciphered start key m plain' cipher')
    (hc : ∀ a < start + 4 * m, cipher' a = cipher a) {a : Nat} (ha : a < start + 4 * m) : plain' a = plain a := by
  rw [h'.plain_unique (h.splice hc), spliced_of_lt _ _ ha]

end

/-! ### A chain run by the engine -/

/-- `t` is `s` but for what a chain changes. -/
def State.SameButChain (s t : State) : Prop := { t with work := s.work, xp := s.xp, key := s.key } = s

theorem State.SameButChain.trans {s t u : State} (h : s.SameButChain t) (h' : t.SameButChain u) : s.SameButChain u := by
  unfold State.SameButChain at h h' ⊢
  exact (congrArg (fun v : State => { v with work := s.work, xp := s.xp, key := s.key }) h').trans h

/-- A chain of `m` blocks takes the engine `m` steps to the end of the body. -/
theorem engineReaches_chain {block : State → State} {p : Phase} (hframe : ∀ s : State, s.SameButChain (block s))
    (hxp : ∀ s : State, (block s).xp = s.xp + 4)
    (hstep : ∀ s : State, s.phase = p → s.xp.toNat < s.blen.toNat → engineStep s = .next (block s)) {m : Nat} {s : State}
    (hp : s.phase = p) (hm : s.xp.toNat + 4 * m = s.blen.toNat) :
    EngineReaches s (block^[m] s) ∧ s.SameButChain (block^[m] s) ∧ (block^[m] s).xp = s.blen := by
  induction m generalizing s with
  | zero => exact ⟨.refl, rfl, BitVec.eq_of_toNat_eq hm⟩
  | succ m ih =>
    have hblen := s.blen.isLt
    have hphase : (block s).phase = s.phase := (congrArg State.phase (hframe s) :)
    have hlength : (block s).blen = s.blen := (congrArg State.blen (hframe s) :)
    have hnext : (block s).xp.toNat = s.xp.toNat + 4 * 1 := hxp s ▸ chainCursor_next (m := 0) rfl (by omega)
    obtain ⟨hreach, hsame, hend⟩ := ih (hphase.trans hp) (by rw [hlength]; omega)
    rw [Function.iterate_succ_apply]
    exact ⟨.head (hstep s hp (by omega)) hreach, (hframe s).trans hsame, hend.trans hlength⟩

section
variable {s : State} {m : Nat}

theorem State.encipher_reaches (hp : s.phase = .encipher) (hm : s.xp.toNat + 4 * m = s.blen.toNat) :
    ∃ t, EngineReaches s t ∧ s.SameButChain t ∧ t.xp = s.blen ∧
      Enciphered s.xp.toNat s.key m (s.work.read .work) (t.work.read .work) := by
  have hblen := s.blen.isLt
  obtain ⟨hreach, hsame, hend⟩ := engineReaches_chain (block := State.encipherBlock) (fun _ => rfl) (fun _ => rfl)
    (fun s hp hx => by rw [engineStep_of_encipher hp, State.encipherStep_of_block hx]) hp hm
  obtain ⟨hchain, -⟩ := State.iterate_encipherBlock (s := s) (m := m) (by omega)
  exact ⟨_, hreach, hsame, hend, hchain⟩

theorem State.decipher_reaches (hp : s.phase = .decipher) (hm : s.xp.toNat + 4 * m = s.blen.toNat) :
    ∃ t, EngineReaches s t ∧ s.SameButChain t ∧ t.xp = s.blen ∧
      Enciphered s.xp.toNat s.key m (t.work.read .work) (s.work.read .work) := by
  have hblen := s.blen.isLt
  obtain ⟨hreach, hsame, hend⟩ := engineReaches_chain (block := State.decipherBlock) (fun _ => rfl) (fun _ => rfl)
    (fun s hp hx => by rw [engineStep_of_decipher hp, State.decipherStep_of_block hx]) hp hm
  obtain ⟨hchain, -⟩ := State.iterate_decipherBlock (s := s) (m := m) (by omega)
  exact ⟨_, hreach, hsame, hend, hchain⟩

/-! ### `CT_ENC` ends with the archive of its body -/

theorem State.RegionLegal.exists_blocks (h : s.RegionLegal) : ∃ m, s.xp.toNat + 4 * m = s.blen.toNat := by
  obtain ⟨hx, hb, hle⟩ := h
  exact ⟨(s.blen.toNat - s.xp.toNat) / 4, by omega⟩

/-- From the start of the enciphering chain (R206) to the archive (R232). -/
theorem State.encipher_runs (hp : s.phase = .encipher) (hregion : s.RegionLegal) (hblen : s.blen.toNat < 2 ^ 32 - 4)
    (htag : s.tag = Config.tagLz ∨ s.tag = Config.tagRaw) (hxp : s.xp = regionStart s.tag)
    (hkey : s.key = initialKey s.seed) :
    ∃ t, RunsTo s t ∧ t.status = 2 ∧
      IsArchive s.tag s.seed (s.work.read .work) s.blen.toNat t.outLen.toNat (t.out.read .out) := by
  obtain ⟨m, hm⟩ := hregion.exists_blocks
  obtain ⟨u, hreach, hsame, hend, hchain⟩ := State.encipher_reaches hp hm
  have hphase : u.phase = s.phase := (congrArg State.phase hsame :)
  have hlength : u.blen = s.blen := (congrArg State.blen hsame :)
  have htag' : u.tag = s.tag := (congrArg State.tag hsame :)
  have hseed : u.seed = s.seed := (congrArg State.seed hsame :)
  have hstep : engineStep u = .next u.returnArchive := by
    rw [engineStep_of_encipher (hphase.trans hp), State.encipherStep_of_end (by rw [hend, hlength])]
  rw [← htag'] at htag
  rw [hxp, hkey] at hchain
  refine ⟨_, hreach.runsTo (.of_step hstep (.refl rfl)), rfl, ?_, ?_, fun k hk => ?_, m, _, hxp ▸ hm, hchain,
    fun k hk => ?_⟩
  · rw [State.returnArchive_outLen (hlength ▸ hblen), hlength]
  · rw [State.returnArchive_read_header htag (by decide), ← htag']
    rfl
  · rw [State.returnArchive_read_seed htag hk, hseed]
  · exact State.returnArchive_read_body (hlength ▸ hk)

/-- From a body (R228) to its archive: the body is padded (R229), and the seed is the payload's length. -/
theorem State.pad_runs (hp : s.phase = .pad) (hbody : s.BodyLegal) :
    ∃ t, RunsTo s t ∧ t.status = 2 ∧
      IsArchive (if s.mode = 1 then Config.tagLz else Config.tagRaw) (s.ilenCmd.setWidth 24) (s.padStep.work.read .work)
        (s.blen.toNat + padCount s.blen.toNat) t.outLen.toNat (t.out.read .out) := by
  have hlength := State.padStep_blen hbody
  have hpad := padCount_lt s.blen.toNat
  have htag : s.padStep.tag = Config.tagLz ∨ s.padStep.tag = Config.tagRaw := by
    rw [State.padStep_tag]
    split
    · exact .inl rfl
    · exact .inr rfl
  obtain ⟨hlt, -⟩ := id hbody
  obtain ⟨t, hrun, hstatus, harchive⟩ :=
    State.encipher_runs (s := s.padStep) rfl (State.padStep_regionLegal hbody) (by omega) htag rfl rfl
  rw [hlength] at harchive
  exact ⟨t, .of_step (engineStep_of_pad hp) hrun, hstatus, harchive⟩

/-- Padding appends zeros to the body (R229). -/
theorem State.padStep_body (s : State) :
    (List.range (s.blen.toNat + padCount s.blen.toNat)).map (s.padStep.work.read .work) =
      (List.range s.blen.toNat).map (s.work.read .work) ++ List.replicate (padCount s.blen.toNat) 0 := by
  rw [List.range_add, List.map_append]
  congr 1
  · refine List.map_congr_left fun a ha => ?_
    have hlt := List.mem_range.1 ha
    rw [State.padStep_read_work, if_neg (by omega)]
  · refine List.ext_getElem (by simp) fun k hk _ => ?_
    have hlt : k < padCount s.blen.toNat := by simpa using hk
    simp [State.padStep_read_work, hlt]

/-! ### `CT_DEC` finds the archive's body -/

variable {tag : Byte} {seed : BitVec 24} {plain : Nat → Byte} {b : Nat}

/-- The step that parses the header (R221). -/
theorem IsArchive.engineStep_envelope (h : IsArchive tag seed plain b s.ilenCmd.toNat (s.inp.read .inp))
    (hp : s.phase = .envelope) : engineStep s = exec (decodeEnvelope tag seed) s := by
  obtain ⟨hlen, htag, hseed, -⟩ := h
  have hfour : min 4 s.ilenCmd.toNat = 4 := by omega
  have hwindow : s.archiveWindow = tag :: bytesLE24 seed ++ [] := by
    have h0 : s.inp.read .inp 1 = byteOf seed 0 := hseed 0 (by decide)
    have h1 : s.inp.read .inp 2 = byteOf seed 1 := hseed 1 (by decide)
    have h2 : s.inp.read .inp 3 = byteOf seed 2 := hseed 2 (by decide)
    rw [State.archiveWindow, hfour]
    simp [List.range_succ, bytesLE24, htag, h0, h1, h2]
  rw [engineStep_of_envelope hp, hwindow, decode_envelope_bytesLE24]
  rfl

/-- The chain of an opened archive restores the body (R203, R207). -/
theorem IsArchive.deciphers {u : State} (h : IsArchive tag seed plain b s.ilenCmd.toNat (s.inp.read .inp))
    (hopen : s.ArchiveOpened tag seed u) :
    ∃ t, EngineReaches u t ∧ t.phase = .decipher ∧ t.op = s.op ∧ t.tag = tag ∧ t.blen.toNat = b ∧ t.xp = t.blen ∧
      ∀ a < b, t.work.read .work a = plain a := by
  obtain ⟨hframe, htag, -, hblen, hxp, hkey, hp, hwork, -⟩ := hopen
  obtain ⟨hlen, -, -, m, cipher, hm, hchain, hbody⟩ := h
  have hlength : u.blen.toNat = b := by omega
  have hkey' : u.key = initialKey seed := BitVec.eq_of_toNat_eq (hkey.trans (keyOfSeed seed).symm)
  obtain ⟨t, hreach, hsame, hend, hchain'⟩ := State.decipher_reaches (s := u) hp (by rw [hxp, hm, hlength])
  rw [hxp, hkey'] at hchain'
  have hlength' : t.blen = u.blen := (congrArg State.blen hsame :)
  have hop : t.op = u.op := (congrArg State.op hsame :)
  refine ⟨t, hreach, (congrArg State.phase hsame :).trans hp, hop.trans (congrArg State.op hframe :),
    (congrArg State.tag hsame :).trans htag, hlength' ▸ hlength, hend.trans hlength'.symm, fun a ha => ?_⟩
  refine hchain.plain_eq_below hchain' (fun a ha => ?_) (hm ▸ ha)
  rw [hwork a (by omega), hbody a (by omega)]

end

/-! ### The body of `CT_ENC` compressed (R228) -/

/-- The engine compresses to the end of the input, by induction on what is left of it (R182). -/
theorem State.Compressing.reaches_end {x : Nat → Byte} {n : Word} {s : State} (h : s.Compressing x n) :
    ∃ t, EngineReaches s t ∧ t.Compressing x n ∧ t.n.toNat ≤ t.pos.toNat ∧ t.op = s.op ∧ t.mode = s.mode := by
  induction hleft : s.n.toNat - s.pos.toNat using Nat.strong_induction_on generalizing s with
  | _ left ih =>
    rcases Nat.lt_or_ge s.pos.toNat s.n.toNat with hpos | hend
    · have hstep : engineStep s = .next s.detect.emitToken := by
        rw [engineStep_of_compress h.phase_eq, State.compressStep_of_token hpos]
      have hnearer : s.pos.toNat < s.detect.emitToken.pos.toNat := by
        simpa using State.lt_emitToken_pos (s := s.detect) (by simpa using hpos) (by simpa using s.detect_mlen_le)
      obtain ⟨t, hreach, hloop, hend, hop, hmode⟩ :=
        ih _ (by rw [State.detect_emitToken_n]; omega) (h.token hpos) rfl
      exact ⟨t, .head hstep hreach, hloop, hend, hop.trans (congrArg State.op s.detect_emitToken_frame :),
        hmode.trans (congrArg State.mode s.detect_emitToken_frame :)⟩
    · exact ⟨s, .refl, h, hend, rfl, rfl⟩

/-- Under `CT_ENC` the compressed form becomes the body, and padding is next. -/
theorem State.Compressing.reaches_pad {x : Nat → Byte} {n : Word} {s : State} (h : s.Compressing x n)
    (hop : s.op ≠ opLzEnc) :
    ∃ t, EngineReaches s t ∧ t.phase = .pad ∧ t.BodyLegal ∧ t.mode = s.mode ∧ t.ilenCmd = n ∧
      ∃ body, CompressedBody x n.toNat body ∧
        (List.range t.blen.toNat).map (t.work.read .work) = subHeader n ++ body := by
  obtain ⟨u, hreach, hloop, hend, hop', hmode⟩ := h.reaches_end
  obtain ⟨body, hbody, hencoded⟩ := hloop.lastFlush hend
  obtain ⟨hp, rfl, -, hlegal, -⟩ := hloop
  have hne : u.op ≠ opLzEnc := hop'.symm ▸ hop
  have hstep : engineStep u = .next { u.lastFlush with blen := u.lastFlush.wlen, phase := .pad } := by
    rcases u.finishEncoder_cases with ⟨heq, -⟩ | ⟨-, e⟩
    · exact absurd heq hne
    · rw [engineStep_of_compress hp, State.compressStep_of_end hend, e]
  have hwork : u.lastFlush.encodedByte = u.lastFlush.work.read .work :=
    funext fun a => if_neg (u.lastFlush_op.symm ▸ hne)
  have hlatched : u.lastFlush.ilenCmd = u.ilenCmd := (congrArg State.ilenCmd u.lastFlush_frame :)
  rw [State.encoded, hwork] at hencoded
  refine ⟨_, hreach.tail hstep, rfl, hlegal.body, (congrArg State.mode u.lastFlush_frame :).trans hmode, ?_, body, hbody,
    hencoded⟩
  obtain ⟨hn, -⟩ := hlegal
  exact hlatched.trans hn.symm

/-! ### Compressed archives (R234 (a)) -/

/-- `CT_ENC` compressed of an accepted payload ends with the archive of its compressed form, padded. -/
theorem execCtEncCompressed_archives {s : State} (hb : s.busy = false) (hmin : 2 ≤ s.inLen.toNat)
    (hmax : s.inLen.toNat ≤ 0xFFFFFF) :
    ∃ u t plain b body rest, exec .ctEncCompressed s = .next u ∧ RunsTo u t ∧ t.status = 2 ∧
      IsArchive Config.tagLz (s.inLen.setWidth 24) plain b t.outLen.toNat (t.out.read .out) ∧
      CompressedBody (s.inp.read .inp) s.inLen.toNat body ∧
      (List.range b).map plain = subHeader s.inLen ++ (body ++ rest) := by
  have hexec : exec .ctEncCompressed s = .next ((s.beforeHeader opCtEnc 1).emit (subHeader s.inLen)) :=
    congrArg Host.Outcome.next
      ((State.startCommand_of_not_busy hb ..).trans (State.startEncoder_start opCtEnc 1 hmin hmax))
  have hloop := State.beforeHeader_emit_compressing (s := s) opCtEnc 1 hmin hmax
  obtain ⟨hstarted, -⟩ := State.beforeHeader_emit_started (s := s) opCtEnc 1 hmax
  obtain ⟨-, -, -, hop, hmode, -⟩ := hstarted
  obtain ⟨v, hreach, hp, hlegal, hmode', hlatched, body, hbody, hwork⟩ :=
    hloop.reaches_pad (by rw [subHeader, hop]; decide)
  obtain ⟨t, hrun, hstatus, harchive⟩ := State.pad_runs hp hlegal
  rw [if_pos (hmode'.trans hmode), hlatched] at harchive
  refine ⟨_, t, _, _, body, List.replicate (padCount v.blen.toNat) 0, hexec, hreach.runsTo hrun, hstatus, harchive,
    hbody, ?_⟩
  rw [State.padStep_body, hwork, List.append_assoc]

section
variable {s : State} {plain : Nat → Byte} {b : Nat}

/-- `CT_DEC` of an archive whose body begins with a compressed form restores what was compressed (R221 to R226). -/
theorem IsArchive.compressed_restores {seed : BitVec 24} {x : Nat → Byte} {n : Word} {body rest : List Byte}
    (h : IsArchive Config.tagLz seed plain b s.ilenCmd.toNat (s.inp.read .inp)) (hp : s.phase = .envelope)
    (hop : s.op = opCtDec) (hbody : CompressedBody x n.toNat body)
    (hplain : (List.range b).map plain = subHeader n ++ (body ++ rest)) (hmin : 2 ≤ n.toNat) (hmax : n.toNat ≤ 0xFFFFFF) :
    ∃ t, RunsTo s t ∧ t.status = 2 ∧ t.outLen = n ∧ ∀ a, a < n.toNat → t.out.read .out a = x a := by
  have hlen := h.length
  have hblocks := h.whole_blocks
  have hlength : b = 4 + (body.length + rest.length) := by
    simpa [subHeader, encode_length, Instr.length] using congrArg List.length hplain
  have hmagic : s.inp.read .inp 4 = 0x11 := by
    have hfirst : plain 0 = Config.lzMagic := by
      simpa [subHeader, encode, List.head?_range, show b ≠ 0 by omega] using congrArg List.head? hplain
    exact (h.read_clear (k := 0) (by decide)).trans hfirst
  obtain ⟨u, hexec, hopened⟩ := compressedArchiveOpens seed s (by omega) (by omega) hmagic
  obtain ⟨v, hreach, hp', hop', htag, hblen, hend, hwork⟩ := h.deciphers hopened
  have hstep : engineStep v = .next (v.startDecoder v.blen) := by
    rw [engineStep_of_decipher hp', State.decipherStep_of_lz (congrArg BitVec.toNat hend).ge htag]
  have hsource : (v.startDecoder v.blen).source = subHeader n ++ (body ++ rest) := by
    rw [← hplain, ← hblen]
    exact List.map_congr_left fun a ha =>
      (if_pos (hop'.trans hop)).trans (hwork a (hblen ▸ List.mem_range.1 ha))
  obtain ⟨t, hrun, hrest⟩ := decoder_restores (s := v.startDecoder v.blen) hbody rfl hsource hmin hmax
  exact ⟨t, .of_step ((h.engineStep_envelope hp).trans hexec) (hreach.runsTo (.of_step hstep hrun)), hrest⟩

/-! ### Raw archives (R227, R234 (b)) -/

/-- `CT_DEC` of a raw archive whose seed is its body's length gives the body. -/
theorem IsArchive.raw_restores {seed : BitVec 24}
    (h : IsArchive Config.tagRaw seed plain b s.ilenCmd.toNat (s.inp.read .inp)) (hp : s.phase = .envelope)
    (hseed : seed.toNat = b) :
    ∃ t, RunsTo s t ∧ t.status = 2 ∧ t.outLen.toNat = b ∧ ∀ a, a < b → t.out.read .out a = plain a := by
  have hlen := h.length
  have hblocks := h.whole_blocks
  obtain ⟨u, hexec, hopened⟩ := rawArchiveOpens seed s (by omega) (by omega) (by omega)
  obtain ⟨v, hreach, hp', -, htag, hblen, hend, hwork⟩ := h.deciphers hopened
  have hstep : engineStep v = .next v.returnWork := by
    rw [engineStep_of_decipher hp', State.decipherStep_of_raw (congrArg BitVec.toNat hend).ge (htag ▸ by decide)]
  refine ⟨_, .of_step ((h.engineStep_envelope hp).trans hexec) (hreach.runsTo (.of_step hstep (.refl rfl))), rfl, hblen,
    fun a ha => ?_⟩
  rw [State.returnWork_read_out v (hblen ▸ ha), hwork a ha]

/-- `CT_DEC` of a raw archive whose seed is not its body's length ends with `InvalidArchive` (R227). -/
theorem IsArchive.raw_refused {seed : BitVec 24}
    (h : IsArchive Config.tagRaw seed plain b s.ilenCmd.toNat (s.inp.read .inp)) (hp : s.phase = .envelope)
    (hseed : seed.toNat ≠ b) : ∃ t, RunsTo s t ∧ s.EndedBy .invalidArchive t := by
  have hlen := h.length
  have hblen := State.opened_blen_toNat (s := s) Config.tagRaw seed (by omega)
  have hexec : exec (.env04 seed) s = .next ((s.opened Config.tagRaw seed).raise .invalidArchive) :=
    congrArg Host.Outcome.next ((State.openArchive_of_header _ _ _ (by omega)).trans
      (if_pos fun heq => hseed (heq.trans (by omega))))
  exact ⟨_, .of_step ((h.engineStep_envelope hp).trans hexec) (.refl rfl), State.raise_endedBy _ rfl rfl⟩

end

/-- `CT_ENC` raw of an accepted payload ends with the archive of the payload, padded. -/
theorem execCtEncRaw_archives {s : State} (hb : s.busy = false) (hmax : s.inLen.toNat ≤ 0xFFFFFF) :
    ∃ u t plain, exec .ctEncRaw s = .next u ∧ RunsTo u t ∧ t.status = 2 ∧
      IsArchive Config.tagRaw (s.inLen.setWidth 24) plain (s.inLen.toNat + padCount s.inLen.toNat) t.outLen.toNat
        (t.out.read .out) ∧
      ∀ a < s.inLen.toNat, plain a = s.inp.read .inp a := by
  obtain ⟨u, hexec, hstarted, hp, hblen, hwork⟩ := rawEncodingStarts s hb hmax
  obtain ⟨-, -, -, -, hmode, hlatched, -⟩ := hstarted
  have hlegal : u.BodyLegal := ⟨by rw [hblen]; omega, fun h => absurd (hmode.symm.trans h) (by decide)⟩
  obtain ⟨t, hrun, hstatus, harchive⟩ := State.pad_runs hp hlegal
  rw [if_neg (hmode ▸ by decide), hlatched, hblen] at harchive
  refine ⟨u, t, _, hexec, hrun, hstatus, harchive, fun a ha => ?_⟩
  rw [State.padStep_read_work, hblen, if_neg (by omega), hwork a ha]

/-! ### Both ways -/

/-- `CT_DEC` on a block that is not busy takes the host's `IN` as its archive (R220, R253). -/
theorem execCtDec_envelope (mode : BitVec 1) {s : State} (hb : s.busy = false) :
    ∃ u, exec (.ctDec mode) s = .next u ∧ u.phase = .envelope ∧ u.op = opCtDec ∧ u.ilenCmd = s.inLen ∧
      u.inLen = s.inLen ∧ u.inp = s.inp := by
  obtain ⟨-, u, hexec, hstarted, -, -, hp⟩ := decodeCommandsStart mode s hb
  obtain ⟨-, -, -, hop, -, hlatched, hlen, hinp, -⟩ := hstarted
  exact ⟨u, hexec, hp, hop, hlatched, hlen, hinp⟩

/-- Settles O59: `CT_ENC` ends with an archive of the compressed form, and that is what `CT_DEC` finds in `IN`. -/
theorem compressedArchiveRoundTrips : Obligations.CompressedArchiveRoundTrips := by
  intro m' s hb hmin hmax
  obtain ⟨u, t, plain, b, body, rest, hexec, hrun, hstatus, harchive, hbody, hplain⟩ :=
    execCtEncCompressed_archives hb hmin hmax
  refine ⟨u, t, hexec, hrun, hstatus, fun s' hb' hlen hinp => ?_⟩
  obtain ⟨u', hexec', hp, hop, hlatched, -, hinp'⟩ := execCtDec_envelope m' hb'
  have harchive' := harchive.congr hinp
  rw [← hlen, ← hlatched, ← hinp'] at harchive'
  obtain ⟨t', hrun', hrest⟩ := harchive'.compressed_restores hp hop hbody hplain hmin hmax
  exact ⟨u', t', hexec', hrun', hrest⟩

/-- Settles O60: the seed is the payload's length, which is the body's only when there is nothing to pad. -/
theorem rawArchiveRoundTripsForWholeBlocks : Obligations.RawArchiveRoundTripsForWholeBlocks := by
  intro m' s hb hmax
  obtain ⟨u, t, plain, hexec, hrun, hstatus, harchive, hplain⟩ := execCtEncRaw_archives hb hmax
  refine ⟨u, t, hexec, hrun, hstatus, fun s' hb' hlen hinp => ?_⟩
  obtain ⟨u', hexec', hp, -, hlatched, hlen', hinp'⟩ := execCtDec_envelope m' hb'
  have harchive' := harchive.congr hinp
  rw [← hlen, ← hlatched, ← hinp'] at harchive'
  have hseed := setWidth_inputLength_toNat hmax
  have hpad := add_padCount_mod s.inLen.toNat
  by_cases hwhole : s.inLen.toNat % 4 = 0
  · have hnone : padCount s.inLen.toNat = 0 := by
      have hlt := padCount_lt s.inLen.toNat
      omega
    rw [hnone, Nat.add_zero] at harchive'
    obtain ⟨t', hrun', hstatus', hlength, hout⟩ := harchive'.raw_restores hp hseed
    exact ⟨u', t', hexec', hrun', fun _ => ⟨hstatus', BitVec.eq_of_toNat_eq hlength,
      fun a ha => (hout a ha).trans (hplain a ha)⟩, fun hne => absurd hwhole hne⟩
  · obtain ⟨t', hrun', hended⟩ := harchive'.raw_refused hp (by omega)
    refine ⟨u', t', hexec', hrun', fun h => absurd h hwhole, fun _ => ?_⟩
    rwa [State.EndedBy, hlen', hinp'] at hended

end Sys2Proof.Machine
end

section
/-! The command `NOP` (O25), and the errors that each command can end with (O53). -/

namespace Sys2Proof.Machine

/-- Settles O25: `OP` 0 is the decoder's first case, and its meaning is the state itself. -/
theorem nopChangesNothing : Obligations.NopChangesNothing := fun _ _ hop => ⟨if_pos hop, rfl⟩

/-! ### The phases and the errors of a command (R251 to R254, R279) -/

/-- Which commands run through a phase: `PhaseLegal`, apart from any state. -/
def Phase.RunsIn (op : BitVec 3) (mode : BitVec 1) : Phase → Prop
  | .idle => True
  | .envelope => op = opCtDec
  | .decipher => op = opCtDec
  | .header => op = opLzDec ∨ op = opCtDec
  | .tokens => op = opLzDec ∨ op = opCtDec
  | .compress => op = opLzEnc ∨ (op = opCtEnc ∧ mode = 1)
  | .pad => op = opCtEnc
  | .encipher => op = opCtEnc

theorem State.phaseLegal_iff (s : State) : s.PhaseLegal ↔ s.phase.RunsIn s.op s.mode := Iff.rfl

theorem State.PhaseLegal.runsIn {s : State} (h : s.PhaseLegal) {p : Phase} (hp : s.phase = p) : p.RunsIn s.op s.mode :=
  hp ▸ s.phaseLegal_iff.1 h

/-- A stream that is being decoded belongs to a command that can find it invalid or too short. -/
theorem mem_errorsOf_decoder {op : BitVec 3} {mode : BitVec 1} (hop : op = opLzDec ∨ op = opCtDec) {e : ErrorKind}
    (he : e = .invalidData ∨ e = .streamTooShort) : e.code.toNat ∈ errorsOf op mode := by
  rcases hop with rfl | rfl <;> rcases he with rfl | rfl <;> decide +revert

theorem State.raise_errorLegal {e : ErrorKind} {s : State} (he : e.code.toNat ∈ errorsOf s.op s.mode) :
    (s.raise e).ErrorLegal :=
  ⟨trivial, fun _ => by rwa [State.raise_errcode, ErrorKind.code_setWidth_toNat]⟩

/-- Without `STATUS.ERR` only the phase counts. -/
theorem State.PhaseLegal.errorLegal {s : State} (h : s.PhaseLegal) {busy done : Bool}
    (hstatus : s.status = statusWord busy done false) : s.ErrorLegal := by
  have herr : s.err = false := by
    rw [State.err, hstatus]
    cases busy <;> cases done <;> decide
  exact ⟨h, fun he => absurd (herr.symm.trans he) (by decide)⟩

theorem State.complete_errorLegal (r : Word) (s : State) : (s.complete r).ErrorLegal :=
  State.PhaseLegal.errorLegal trivial (State.complete_status r s)

/-- A frame that spares the latches, the report and the phase spares their legality. -/
theorem State.ErrorLegal.of_frame {s t u : State} (hs : s.ErrorLegal) (hf : u = s)
    (h : u.op = t.op ∧ u.mode = t.mode ∧ u.status = t.status ∧ u.errcode = t.errcode ∧ u.phase = t.phase) :
    t.ErrorLegal := by
  subst hf
  obtain ⟨hop, hmode, hstatus, herrcode, hphase⟩ := h
  unfold State.ErrorLegal State.err at hs ⊢
  rw [State.phaseLegal_iff] at hs ⊢
  rwa [← hop, ← hmode, ← hstatus, ← herrcode, ← hphase]

/-! ### The moves -/

theorem EngineMove.errorLegal {s t : State} (h : EngineMove s t) (hs : s.ErrorLegal) : t.ErrorLegal := by
  obtain ⟨hphase, herr⟩ := id hs
  cases h with
  | idle => exact hs
  | archiveError u hp hu =>
    have hop : s.op = opCtDec := hphase.runsIn hp
    have hcode : ErrorKind.invalidArchive.code.toNat ∈ errorsOf s.op s.mode := by
      rw [hop]
      exact List.mem_cons_self
    rcases hu with rfl | ⟨tag, seed, rfl⟩ <;> exact State.raise_errorLegal hcode
  | streamError u e hp hu he =>
    have hop : s.op = opLzDec ∨ s.op = opCtDec := hp.elim hphase.runsIn hphase.runsIn
    have hop' : u.op = s.op := (congrArg State.op hu :)
    exact State.raise_errorLegal (mem_errorsOf_decoder (hop'.symm ▸ hop) he)
  | openArchive tag seed hp => exact ⟨hphase.runsIn hp, herr⟩
  | handOver hp => exact ⟨.inr (hphase.runsIn hp), herr⟩
  | declareSize k size hp => exact ⟨hphase.runsIn hp, herr⟩
  | reference k len disp =>
    exact State.ErrorLegal.of_frame (s := (s.classified.advance k).setOperands len disp) hs
      (State.copyBytes_frame len.toNat _) ⟨rfl, rfl, rfl, rfl, rfl⟩
  | compressToken => exact hs.of_frame s.detect_emitToken_frame ⟨rfl, rfl, rfl, rfl, rfl⟩
  | bodyReady hp hpos hop =>
    obtain ⟨-, herr'⟩ : s.lastFlush.ErrorLegal := hs.of_frame s.lastFlush_frame ⟨rfl, rfl, rfl, rfl, rfl⟩
    have hct : s.op = opCtEnc := ((hphase.runsIn hp).resolve_left hop).1
    exact ⟨s.lastFlush_op.trans hct, herr'⟩
  | pad hp => exact ⟨hphase.runsIn hp, herr⟩
  | returnWork => exact State.complete_errorLegal _ _
  | endDecoding => exact State.complete_errorLegal _ _
  | endEncoding => exact State.complete_errorLegal _ _
  | returnArchive => exact State.complete_errorLegal _ _
  | decipherBlock => exact hs
  | encipherBlock => exact hs
  | loadFlags => exact hs
  | literal => exact hs

theorem CommandMove.errorLegal {s t : State} (h : CommandMove s t) : t.ErrorLegal := by
  cases h with
  | error op mode u e hu he =>
    have hop : u.op = op := (congrArg State.op hu :)
    have hmode : u.mode = mode := (congrArg State.mode hu :)
    exact State.raise_errorLegal (by rwa [hop, hmode])
  | decodeStream mode => exact State.PhaseLegal.errorLegal (.inl rfl) (s.start_status opLzDec mode)
  | decodeArchive mode => exact State.PhaseLegal.errorLegal rfl (s.start_status opCtDec mode)
  | encodeRaw => exact State.PhaseLegal.errorLegal rfl (s.start_status opCtEnc 0)
  | encodeStream op mode hop =>
    have hstart : State.ErrorLegal { s.start op mode with n := s.inLen, phase := .compress } :=
      State.PhaseLegal.errorLegal hop (s.start_status op mode)
    exact hstart.of_frame (State.emit_frame _ _) ⟨rfl, rfl, rfl, rfl, rfl⟩

theorem HostMove.errorLegal {s t : State} {a : HostAction} (h : HostMove s a t) (hs : s.ErrorLegal) : t.ErrorLegal := by
  cases h with
  | observe => exact hs
  | command v t hb hn hm => exact hm.errorLegal
  | writeInLen => exact hs
  | writeInput => exact hs
  | reset => exact State.PhaseLegal.errorLegal (busy := false) (done := false) trivial rfl

/-- Settles O53: the phase names the commands that can raise the errors of its rules. -/
theorem stepKeepsErrorLegal : Obligations.StepKeepsErrorLegal :=
  fun _ _ => step_preserves (fun _ _ h => h) (fun _ _ => EngineMove.errorLegal) (fun _ _ _ => HostMove.errorLegal)

end Sys2Proof.Machine
end

section
/-! A command's outcome depends on the command word and on `IN[0 .. IN_LEN)` alone (O32): two runs of one command over the same
input move in lockstep. In each phase the two blocks agree in what the rest of the command reads (R261), and in nothing else:
registers that are dead or that the command has not loaded, and bytes that it has not written, may differ. -/

namespace Sys2Proof.Machine

/-! ### What two runs share, phase by phase -/

/-- The latches, and the input they speak of (R250). -/
structure SameJob (s s' : State) : Prop where
  op : s'.op = s.op
  mode : s'.mode = s.mode
  ilenCmd : s'.ilenCmd = s.ilenCmd
  inp : ∀ a < s.ilenCmd.toNat, s'.inp.read .inp a = s.inp.read .inp a

/-- The body of an archive, in `WORK` (R221, R228). -/
structure SameBody (s s' : State) : Prop where
  blen : s'.blen = s.blen
  work : ∀ a < s.blen.toNat, s'.work.read .work a = s.work.read .work a

/-- A chain over the body, and the header's fields (R203, R206, R230). -/
structure SameChain (s s' : State) : Prop extends SameBody s s' where
  tag : s'.tag = s.tag
  seed : s'.seed = s.seed
  xp : s'.xp = s.xp
  key : s'.key = s.key

/-- The stream of the token decoder (R23). -/
structure SameStream (s s' : State) : Prop where
  ilen : s'.ilen = s.ilen
  byte : ∀ a < s.ilen.toNat, s'.streamByte a = s.streamByte a

/-- The token decoder in its main loop: the stream, and the output so far (R132). `HIST` is not here: it is a view of the
output. -/
structure SameDecoder (s s' : State) : Prop extends SameStream s s' where
  ip : s'.ip = s.ip
  size : s'.size = s.size
  olen : s'.olen = s.olen
  mask : s'.mask = s.mask
  flags : s'.flags = s.flags
  out : ∀ a < s.olen.toNat, s'.out.read .out a = s.out.read .out a

/-- The token encoder in its main loop: the input, the group, and the stream so far (R182). -/
structure SameEncoder (s s' : State) : Prop extends SameJob s s' where
  n : s'.n = s.n
  pos : s'.pos = s.pos
  gflags : s'.gflags = s.gflags
  gcount : s'.gcount = s.gcount
  gbuf : s'.gbuf = s.gbuf
  wlen : s'.wlen = s.wlen
  encoded : ∀ a < s.wlen.toNat, s'.encodedByte a = s.encodedByte a

/-- What the host sees of a command that has ended (R255, R280). -/
structure SameOutcome (s s' : State) : Prop where
  status : s'.status = s.status
  errcode : s'.errcode = s.errcode
  outLen : s'.outLen = s.outLen
  out : ∀ a < s.outLen.toNat, s'.out.read .out a = s.out.read .out a

/-- Two runs of one command over the same input, at the same point of it. -/
inductive Lockstep (s s' : State) : Prop
  | ended (hp : s.phase = .idle) (hp' : s'.phase = .idle) (h : SameOutcome s s')
  | envelope (hp : s.phase = .envelope) (hp' : s'.phase = .envelope) (hop : s.op = opCtDec) (h : SameJob s s')
  | decipher (hp : s.phase = .decipher) (hp' : s'.phase = .decipher) (hop : s.op = opCtDec) (hop' : s'.op = opCtDec)
      (h : SameChain s s')
  | header (hp : s.phase = .header) (hp' : s'.phase = .header) (h : SameStream s s')
  | tokens (hp : s.phase = .tokens) (hp' : s'.phase = .tokens) (h : SameDecoder s s')
  | compress (hp : s.phase = .compress) (hp' : s'.phase = .compress) (h : SameEncoder s s')
  | pad (hp : s.phase = .pad) (hp' : s'.phase = .pad) (hjob : SameJob s s') (hbody : SameBody s s')
  | encipher (hp : s.phase = .encipher) (hp' : s'.phase = .encipher) (h : SameChain s s')

/-- Both outcomes are next states, in lockstep. -/
def NextInLockstep (o o' : Host.Outcome State Fault Refusal) : Prop :=
  ∃ t t', o = .next t ∧ o' = .next t' ∧ Lockstep t t'

theorem Lockstep.next {t t' : State} (h : Lockstep t t') : NextInLockstep (.next t) (.next t') := ⟨t, t', rfl, rfl, h⟩

/-! ### The end of a command, and the tests on the way -/

/-- An error shows nothing but its code (R280, R281). -/
theorem Lockstep.raise (e : ErrorKind) (s s' : State) : Lockstep (s.raise e) (s'.raise e) :=
  .ended rfl rfl ⟨rfl, rfl, rfl, fun a ha => absurd ha (Nat.not_lt_zero a)⟩

theorem Lockstep.complete {r r' : Word} {s s' : State} (hr : r' = r)
    (hout : ∀ a < r.toNat, s'.out.read .out a = s.out.read .out a) : Lockstep (s.complete r) (s'.complete r') :=
  .ended rfl rfl ⟨rfl, rfl, hr, hout⟩

section
variable {s s' : State}

theorem runDecoded_lockstep {d : Decoded} (short : ErrorKind)
    (h : ∀ i k, d = .ok i k → NextInLockstep (exec i s) (exec i s')) :
    NextInLockstep (s.runDecoded short d) (s'.runDecoded short d) := by
  cases d with
  | ok i k => exact h i k rfl
  | reject why =>
    cases why with
    | short => exact (Lockstep.raise short s s').next
    | badMagic => exact (Lockstep.raise .invalidData s s').next

theorem requireBytes_lockstep {k : Nat} {f : State → State} (havail : s'.avail = s.avail)
    (h : k ≤ s.avail → Lockstep (f s) (f s')) : Lockstep (s.requireBytes k f) (s'.requireBytes k f) := by
  rcases Nat.lt_or_ge s.avail k with hshort | hk
  · rw [State.requireBytes_of_short f hshort, State.requireBytes_of_short f (havail ▸ hshort)]
    exact .raise _ _ _
  · rw [State.requireBytes_of_avail f hk, State.requireBytes_of_avail f (havail ▸ hk)]
    exact h hk

end

end Sys2Proof.Machine
end

section
/-! Lockstep through the container decoder (O32): the header, and the chains of `CT_DEC` and `CT_ENC`. -/

namespace Sys2Proof.Machine

section
variable {s s' : State}

/-! ### An archive is opened (R220 to R224, R227) -/

theorem SameJob.archiveWindow (h : SameJob s s') : s'.archiveWindow = s.archiveWindow := by
  unfold State.archiveWindow
  rw [h.ilenCmd]
  refine List.map_congr_left fun a ha => h.inp a ?_
  have ha' := List.mem_range.1 ha
  omega

theorem SameJob.opened (h : SameJob s s') (tag : Byte) (seed : BitVec 24) (hlen : 4 ≤ s.ilenCmd.toNat) :
    SameBody (s.opened tag seed) (s'.opened tag seed) := by
  refine ⟨congrArg (· - 4) h.ilenCmd, fun a ha => ?_⟩
  rw [State.opened_blen_toNat tag seed hlen] at ha
  rw [State.opened_read_work_inside tag seed ha, State.opened_read_work_inside tag seed (h.ilenCmd ▸ ha)]
  exact h.inp _ (by omega)

theorem SameJob.openArchive (h : SameJob s s') {tag : Byte} {seed : BitVec 24} {f : State → State}
    (hf : 4 ≤ s.ilenCmd.toNat → Lockstep (f (s.opened tag seed)) (f (s'.opened tag seed))) :
    Lockstep (s.openArchive tag seed f) (s'.openArchive tag seed f) := by
  rcases s.openArchive_cases tag seed f with ⟨hshort, e⟩ | ⟨hlen, e⟩ <;>
    rcases s'.openArchive_cases tag seed f with ⟨hshort', e'⟩ | ⟨hlen', e'⟩ <;> rw [e, e']
  · exact .raise _ _ _
  · exact absurd (h.ilenCmd ▸ hlen') (Nat.not_le.2 hshort)
  · exact absurd hlen (Nat.not_le.2 (h.ilenCmd ▸ hshort'))
  · exact hf hlen

theorem SameJob.startDecipher (h : SameJob s s') (hop : s.op = opCtDec) (tag : Byte) (seed : BitVec 24)
    (hlen : 4 ≤ s.ilenCmd.toNat) :
    Lockstep (s.opened tag seed).startDecipher (s'.opened tag seed).startDecipher := by
  have hbody := h.opened tag seed hlen
  unfold State.startDecipher
  rw [hbody.blen]
  split
  · exact .raise _ _ _
  · exact .decipher rfl rfl hop (h.op.trans hop) { hbody with tag := rfl, seed := rfl, xp := rfl, key := rfl }

theorem SameJob.execEnv17 (h : SameJob s s') (hop : s.op = opCtDec) (seed : BitVec 24) :
    NextInLockstep (execEnv17 seed s) (execEnv17 seed s') := by
  refine (h.openArchive fun hlen => ?_).next
  have hbody := h.opened Config.tagLz seed hlen
  have hmagic : ((s'.opened Config.tagLz seed).blen.toNat < 1 ∨
        (s'.opened Config.tagLz seed).work.read .work 0 ≠ Config.lzMagic) ↔
      ((s.opened Config.tagLz seed).blen.toNat < 1 ∨
        (s.opened Config.tagLz seed).work.read .work 0 ≠ Config.lzMagic) := by
    rw [hbody.blen]
    rcases Nat.lt_or_ge (s.opened Config.tagLz seed).blen.toNat 1 with hempty | hone
    · exact iff_of_true (.inl hempty) (.inl hempty)
    · rw [hbody.work 0 hone]
  simp only [hmagic]
  split
  · exact .raise _ _ _
  · exact h.startDecipher hop _ seed hlen

theorem SameJob.execEnv04 (h : SameJob s s') (hop : s.op = opCtDec) (seed : BitVec 24) :
    NextInLockstep (execEnv04 seed s) (execEnv04 seed s') := by
  refine (h.openArchive fun hlen => ?_).next
  have hseed : (s'.opened Config.tagRaw seed).seed = (s.opened Config.tagRaw seed).seed := rfl
  simp only [hseed, (h.opened Config.tagRaw seed hlen).blen]
  split
  · exact .raise _ _ _
  · exact h.startDecipher hop _ seed hlen

theorem SameJob.engineStep_envelope (h : SameJob s s') (hp : s.phase = .envelope) (hp' : s'.phase = .envelope)
    (hop : s.op = opCtDec) : NextInLockstep (engineStep s) (engineStep s') := by
  rw [engineStep_of_envelope hp, engineStep_of_envelope hp', h.archiveWindow]
  refine runDecoded_lockstep _ fun i k hd => ?_
  rcases Instr.of_envelope_context (context_of_decode hd) with ⟨seed, rfl⟩ | ⟨seed, rfl⟩ | ⟨tag, seed, rfl⟩
  · exact h.execEnv17 hop seed
  · exact h.execEnv04 hop seed
  · exact (h.openArchive fun _ => .raise _ _ _).next

/-! ### The chains (R203, R206) -/

/-- The next block lies inside the region (R66), so both runs put the same word there. -/
theorem SameChain.xorBlock (h : SameChain s s') (hregion : s.RegionLegal) (hx : s.xp.toNat < s.blen.toNat) :
    s'.work.readWord .work s'.xp.toNat ^^^ s'.key = s.work.readWord .work s.xp.toNat ^^^ s.key := by
  obtain ⟨hxmod, hbmod, -⟩ := hregion
  rw [h.key, h.xp, Memory.readWord_eq_wordAt, Memory.readWord_eq_wordAt]
  exact congrArg (· ^^^ s.key) (wordAt_congr fun i hi => h.work _ (by omega))

/-- The same word at the same place keeps the bodies the same. -/
theorem SameBody.writeWord (h : SameBody s s') (a : Nat) (x : Word) :
    ∀ b < s.blen.toNat, (s'.work.writeWord a x).read .work b = (s.work.writeWord a x).read .work b := by
  intro b hb
  rw [Memory.writeWord, Memory.writeWord, Memory.read_writeAll, Memory.read_writeAll, h.work b hb]

theorem SameChain.decipherBlock (h : SameChain s s') (hregion : s.RegionLegal) (hx : s.xp.toNat < s.blen.toNat) :
    SameChain s.decipherBlock s'.decipherBlock := by
  have hword := h.xorBlock hregion hx
  refine { tag := h.tag, seed := h.seed, blen := h.blen, work := ?_, xp := congrArg (· + 4) h.xp, key := ?_ }
  · rw [State.decipherBlock_work, State.decipherBlock_work, hword, h.xp]
    exact h.writeWord _ _
  · rw [State.decipherBlock_key, State.decipherBlock_key, hword, h.key]

theorem SameChain.encipherBlock (h : SameChain s s') (hregion : s.RegionLegal) (hx : s.xp.toNat < s.blen.toNat) :
    SameChain s.encipherBlock s'.encipherBlock := by
  have hword := h.xorBlock hregion hx
  refine { tag := h.tag, seed := h.seed, blen := h.blen, work := ?_, xp := congrArg (· + 4) h.xp, key := hword }
  rw [State.encipherBlock_work, State.encipherBlock_work, hword, h.xp]
  exact h.writeWord _ _

theorem SameBody.startDecoder (h : SameBody s s') (hop : s.op = opCtDec) (hop' : s'.op = opCtDec) :
    SameStream (s.startDecoder s.blen) (s'.startDecoder s.blen) := by
  refine ⟨rfl, fun a ha => ?_⟩
  have hbyte : (s.startDecoder s.blen).streamByte a = s.work.read .work a := if_pos hop
  have hbyte' : (s'.startDecoder s.blen).streamByte a = s'.work.read .work a := if_pos hop'
  rw [hbyte, hbyte', h.work a ha]

theorem SameBody.returnWork (h : SameBody s s') : Lockstep s.returnWork s'.returnWork := by
  refine .complete h.blen fun a ha => ?_
  have hread := s.returnWork_read_out ha
  have hread' := s'.returnWork_read_out (h.blen ▸ ha)
  rw [State.returnWork, State.complete_out] at hread hread'
  rw [hread, hread', h.work a ha]

theorem SameChain.engineStep_decipher (h : SameChain s s') (hregion : s.RegionLegal) (hp : s.phase = .decipher)
    (hp' : s'.phase = .decipher) (hop : s.op = opCtDec) (hop' : s'.op = opCtDec) :
    NextInLockstep (engineStep s) (engineStep s') := by
  rw [engineStep_of_decipher hp, engineStep_of_decipher hp']
  refine Lockstep.next ?_
  unfold State.decipherStep
  rw [h.xp, h.blen, h.tag]
  split
  next hx => exact .decipher hp hp' hop hop' (h.decipherBlock hregion hx)
  next =>
    split
    next => exact .header rfl rfl (h.startDecoder hop hop')
    next => exact h.returnWork

end

end Sys2Proof.Machine
end

section
/-! Lockstep through the token decoder (O32): it reads the stream, and output bytes that it has produced (R130 to R140). -/

namespace Sys2Proof.Machine

section
variable {s s' : State}

theorem SameStream.streamWindow (h : SameStream s s') (hip : s'.ip = s.ip) : s'.streamWindow = s.streamWindow := by
  have hsource : s'.source = s.source := by
    unfold State.source
    rw [h.ilen]
    exact List.map_congr_left fun a ha => h.byte a (List.mem_range.1 ha)
  rw [State.streamWindow_eq, State.streamWindow_eq, hsource, hip]

theorem SameStream.avail (h : SameStream s s') (hip : s'.ip = s.ip) : s'.avail = s.avail := by
  rw [State.avail, State.avail, h.ilen, hip]

theorem SameStream.decoderInit (h : SameStream s s') : SameStream s.decoderInit s'.decoderInit := ⟨h.ilen, h.byte⟩

theorem SameStream.declareSize (h : SameStream s s') (k : Nat) (size : Word) :
    Lockstep (s.declareSize k size) (s'.declareSize k size) := by
  refine requireBytes_lockstep (h.decoderInit.avail rfl) fun _ => .tokens rfl rfl ?_
  exact { h with
    ip := rfl, size := rfl, olen := rfl, mask := rfl, flags := rfl, out := fun a ha => absurd ha (Nat.not_lt_zero a) }

theorem SameStream.engineStep_header (h : SameStream s s') (hp : s.phase = .header) (hp' : s'.phase = .header) :
    NextInLockstep (engineStep s) (engineStep s') := by
  rw [engineStep_of_header hp, engineStep_of_header hp', h.decoderInit.streamWindow rfl]
  refine runDecoded_lockstep _ fun i k hd => ?_
  rcases Instr.of_header_context (context_of_decode hd) with ⟨size, rfl⟩ | ⟨size, rfl⟩
  · exact (h.declareSize 4 _).next
  · exact (h.declareSize 8 _).next

theorem SameDecoder.classified (h : SameDecoder s s') : SameDecoder s.classified s'.classified :=
  { h with mask := congrArg (fun m : Byte => m >>> 1) h.mask }

theorem SameDecoder.loadFlags (h : SameDecoder s s') (f : Byte) : SameDecoder (s.loadFlags f) (s'.loadFlags f) :=
  { h with mask := rfl, flags := rfl }

theorem SameDecoder.advance (h : SameDecoder s s') (k : Nat) : SameDecoder (s.advance k) (s'.advance k) :=
  { h with ip := congrArg (· + BitVec.ofNat 32 k) h.ip }

theorem SameDecoder.setOperands (h : SameDecoder s s') (len : BitVec 17) (disp : BitVec 13) :
    SameDecoder (s.setOperands len disp) (s'.setOperands len disp) := { h with }

theorem SameDecoder.produce (h : SameDecoder s s') (b : Byte) : SameDecoder (s.produce b) (s'.produce b) := by
  refine { h with olen := congrArg (· + 1) h.olen, out := fun a ha => ?_ }
  have hlast : a < s.olen.toNat + 1 := by
    rw [State.produce_olen, BitVec.toNat_add] at ha
    exact ha.trans_le (Nat.mod_le _ _)
  rw [State.produce_out, State.produce_out, Memory.read_write, Memory.read_write, h.olen]
  split
  next => rfl
  next hne => exact h.out a (by omega)

/-- Every byte of a copy comes from the output so far, in which `HIST` of either run is a view (R139 to R141). -/
theorem SameDecoder.copyBytes (h : SameDecoder s s') (hdisp : s'.disp = s.disp) (hview : s.HistoryView)
    (hview' : s'.HistoryView) (hmin : 1 ≤ s.disp.toNat) (hmax : s.disp.toNat ≤ 4096) (hd : s.disp.toNat ≤ s.olen.toNat)
    (k : Nat) : SameDecoder (s.copyBytes k) (s'.copyBytes k) := by
  induction k generalizing s s' with
  | zero => exact h
  | succ k ih =>
    have hbyte : s'.historyByte = s.historyByte := by
      rw [hview.historyByte_eq hmin hmax hd,
        hview'.historyByte_eq (hdisp ▸ hmin) (hdisp ▸ hmax) (hdisp ▸ h.olen ▸ hd), hdisp, h.olen]
      exact h.out _ (by omega)
    unfold State.copyBytes
    rw [h.olen, h.size, hbyte]
    split
    next hroom =>
      have hsize := s.size.isLt
      have holen : (s.produce s.historyByte).olen.toNat = s.olen.toNat + 1 := State.copyByte_olen_toNat hroom
      exact ih (h.produce _) hdisp (hview.produce _ (by omega)) (hview'.produce _ (by rw [h.olen]; omega)) hmin hmax
        (by rw [holen]; exact Nat.le_succ_of_le hd)
    next => exact h

theorem SameDecoder.backReference (h : SameDecoder s s') (hview : s.HistoryView) (hview' : s'.HistoryView)
    (hp : s.phase = .tokens) (hp' : s'.phase = .tokens) (k : Nat) (len : BitVec 17) (d : BitVec 12) :
    Lockstep (s.backReference k len (displacement d)) (s'.backReference k len (displacement d)) := by
  have havail := h.avail h.ip
  rcases s.backReference_cases k len (displacement d) with ⟨hshort, e⟩ | ⟨ha, hbeyond, e⟩ | ⟨ha, hwithin, e⟩ <;> rw [e]
  · rw [State.backReference, State.requireBytes_of_short _ (havail ▸ hshort)]
    exact .raise _ _ _
  · rw [State.backReference_of_beyond len (havail ▸ ha) (h.olen ▸ hbeyond)]
    exact .raise _ _ _
  · rw [State.backReference_of_within len (havail ▸ ha) (h.olen ▸ hwithin)]
    have hsame := (h.advance k).setOperands len (displacement d)
    have hdisp := displacement_toNat d
    have hlt := d.isLt
    refine .tokens ?_ ?_ (hsame.copyBytes rfl hview hview' ?_ ?_ hwithin _)
    · simpa using hp
    · simpa using hp'
    · rw [State.setOperands_disp, hdisp]; omega
    · rw [State.setOperands_disp, hdisp]; omega

theorem SameDecoder.exec_token (h : SameDecoder s s') (hview : s.HistoryView) (hview' : s'.HistoryView)
    (hp : s.phase = .tokens) (hp' : s'.phase = .tokens) {i : Instr} {isRef : Bool} (hi : i.context = .token isRef) :
    NextInLockstep (exec i s) (exec i s') := by
  rcases Instr.of_token_context hi with ⟨b, rfl⟩ | ⟨l, d, rfl⟩ | ⟨v, d, rfl⟩ | ⟨v, d, rfl⟩
  · exact (requireBytes_lockstep (h.avail h.ip) fun _ => .tokens hp hp' ((h.advance 1).produce b)).next
  · exact (h.backReference hview hview' hp hp' 2 _ d).next
  · exact (h.backReference hview hview' hp hp' 3 _ d).next
  · exact (h.backReference hview hview' hp hp' 4 _ d).next

theorem SameDecoder.engineStep_tokens (h : SameDecoder s s') (hview : s.HistoryView) (hview' : s'.HistoryView)
    (hp : s.phase = .tokens) (hp' : s'.phase = .tokens) : NextInLockstep (engineStep s) (engineStep s') := by
  have hwindow := h.streamWindow h.ip
  have href : s'.isRef = s.isRef := by rw [State.isRef, State.isRef, h.flags, h.mask]
  rw [engineStep_of_tokens hp, engineStep_of_tokens hp']
  unfold State.tokenStep
  rw [h.size, h.olen, h.mask, hwindow, href]
  split
  next hend => exact (Lockstep.complete rfl fun a ha => h.out a (by omega)).next
  next =>
    split
    next =>
      refine runDecoded_lockstep _ fun i k hd => ?_
      obtain ⟨f, rfl⟩ := Instr.of_flags_context (context_of_decode hd)
      exact (requireBytes_lockstep (h.avail h.ip) fun _ => .tokens hp hp' ((h.loadFlags f).advance 1)).next
    next => exact runDecoded_lockstep _ fun i k hd => h.classified.exec_token hview hview' hp hp' (context_of_decode hd)

end

end Sys2Proof.Machine
end

section
/-! Lockstep through the encoders (O32): the match detector reads the input only, and a stream is read only where it was
written. -/

namespace Sys2Proof.Machine

section
variable (bytes : List Byte) (s : State)

@[simp] theorem State.emit_mode : (s.emit bytes).mode = s.mode := (congrArg State.mode (s.emit_frame bytes) :)
@[simp] theorem State.emit_ilenCmd : (s.emit bytes).ilenCmd = s.ilenCmd :=
  (congrArg State.ilenCmd (s.emit_frame bytes) :)
@[simp] theorem State.emit_pos : (s.emit bytes).pos = s.pos := (congrArg State.pos (s.emit_frame bytes) :)
@[simp] theorem State.emit_gflags : (s.emit bytes).gflags = s.gflags := (congrArg State.gflags (s.emit_frame bytes) :)
@[simp] theorem State.emit_gcount : (s.emit bytes).gcount = s.gcount := (congrArg State.gcount (s.emit_frame bytes) :)
@[simp] theorem State.emit_gbuf : (s.emit bytes).gbuf = s.gbuf := (congrArg State.gbuf (s.emit_frame bytes) :)
@[simp] theorem State.emit_inp : (s.emit bytes).inp = s.inp := (congrArg State.inp (s.emit_frame bytes) :)

end

section
variable {s s' : State}

/-! ### The match detector (R160 to R165) -/

/-- A match is sought inside the input only. -/
theorem matchLength_congr {x y : Nat → Byte} {n pos d k i : Nat} (h : ∀ a < n, y a = x a) (hk : pos + i + k ≤ n) :
    matchLength y pos d k i = matchLength x pos d k i := by
  induction k generalizing i with
  | zero => rfl
  | succ k ih =>
    unfold matchLength
    rw [h (pos + i) (by omega), h (pos - d + i) (by omega), ih (by omega)]

theorem bestMatch_congr {x y : Nat → Byte} {n pos maxlen : Nat} (h : ∀ a < n, y a = x a) (hlimit : pos + maxlen ≤ n)
    (c : Nat) : bestMatch y pos maxlen c = bestMatch x pos maxlen c := by
  induction c with
  | zero => rfl
  | succ c ih =>
    unfold bestMatch
    rw [ih, matchLength_congr h hlimit]

theorem SameEncoder.findMatch (h : SameEncoder s s') (hn : s.n = s.ilenCmd) (hpos : s.pos.toNat < s.n.toNat) :
    s'.findMatch = s.findMatch := by
  have hlimit : forwardLimit s.n.toNat s.pos.toNat ≤ s.n.toNat - s.pos.toNat := Nat.min_le_left _ _
  unfold State.findMatch
  rw [h.n, h.pos]
  exact bestMatch_congr (n := s.n.toNat) (fun a ha => h.inp a (hn ▸ ha)) (by omega) _

/-! ### The token encoder (R180 to R192) -/

theorem SameEncoder.emit (h : SameEncoder s s') (bytes : List Byte) : SameEncoder (s.emit bytes) (s'.emit bytes) where
  op := by simpa using h.op
  mode := by simpa using h.mode
  ilenCmd := by simpa using h.ilenCmd
  inp := by simpa using h.inp
  n := by simpa using h.n
  pos := by simpa using h.pos
  gflags := by simpa using h.gflags
  gcount := by simpa using h.gcount
  gbuf := by simpa using h.gbuf
  wlen := by simpa using h.wlen
  encoded := fun a ha => by
    have hold : a < s.wlen.toNat + bytes.length := by
      rw [State.emit_wlen, BitVec.toNat_add, BitVec.toNat_ofNat, Nat.add_mod_mod] at ha
      exact ha.trans_le (Nat.mod_le _ _)
    simp only [State.emit_encodedByte, h.wlen]
    split
    next => rfl
    next hne => exact h.encoded a (by omega)

theorem SameEncoder.flush (h : SameEncoder s s') : SameEncoder s.flush s'.flush := by
  have hsent : SameEncoder ((s.emit [s.gflags]).emit s.gbuf) ((s'.emit [s'.gflags]).emit s'.gbuf) := by
    rw [h.gflags, h.gbuf]
    exact (h.emit _).emit _
  exact { hsent with gflags := rfl, gcount := rfl, gbuf := rfl }

theorem SameEncoder.lastFlush (h : SameEncoder s s') : SameEncoder s.lastFlush s'.lastFlush := by
  unfold State.lastFlush
  rw [h.gcount]
  split
  · exact h
  · exact h.flush

theorem SameEncoder.join (h : SameEncoder s s') (token : List Byte) (isRef : Bool) :
    SameEncoder (s.join token isRef) (s'.join token isRef) :=
  { h with
    gflags := congrArg₂ (groupFlags · · isRef) h.gflags h.gcount
    gcount := congrArg (· + 1) h.gcount
    gbuf := congrArg (· ++ token) h.gbuf }

theorem SameEncoder.account (h : SameEncoder s s') (token : List Byte) (isRef : Bool) :
    SameEncoder (s.account token isRef) (s'.account token isRef) := by
  have hjoin := h.join token isRef
  have haccount (u : State) : u.account token isRef =
    if (u.join token isRef).gcount.toNat = Config.group then (u.join token isRef).flush else u.join token isRef := rfl
  rw [haccount, haccount, hjoin.gcount]
  split
  · exact hjoin.flush
  · exact hjoin

/-- The token is the same although `mdisp` is a free value where nothing matches (R165): no back-reference is chosen
there. -/
theorem SameEncoder.token (h : SameEncoder s s') (hn : s.n = s.ilenCmd) (hpos : s.pos.toNat < s.n.toNat) :
    SameEncoder s.detect.emitToken s'.detect.emitToken := by
  have hfound := h.findMatch hn hpos
  have hmlen : s'.detect.mlen = s.detect.mlen := BitVec.eq_of_toNat_eq (by simp [hfound])
  have hchoice : s'.detect.choosesRef = s.detect.choosesRef := by rw [State.choosesRef, State.choosesRef, hmlen]
  have hnext : s'.detect.nextPos = s.detect.nextPos := by
    rw [State.nextPos, State.nextPos, hchoice, hmlen, State.detect_pos, State.detect_pos, h.pos]
  have htoken : s'.detect.chosenToken = s.detect.chosenToken := by
    unfold State.chosenToken
    rw [hchoice]
    split
    next href =>
      have hmatch : 3 ≤ s.findMatch.1 := s.detect_mlen_toNat ▸ of_decide_eq_true href
      have hmatch' : 3 ≤ s'.findMatch.1 := hfound ▸ hmatch
      have hmdisp : s'.detect.mdisp = s.detect.mdisp := by
        refine BitVec.eq_of_toNat_eq ?_
        rw [State.detect_mdisp_toNat (s := s) (by omega), State.detect_mdisp_toNat (s := s') (by omega), hfound]
      rw [hmlen, hmdisp]
    next =>
      rw [State.detect_inp, State.detect_inp, State.detect_pos, State.detect_pos, h.pos, h.inp _ (hn ▸ hpos)]
  have hsearched : SameEncoder s.searched s'.searched := { h with pos := hnext }
  rw [State.detect_emitToken_eq, State.detect_emitToken_eq, htoken, hchoice]
  exact hsearched.account _ _

theorem SameEncoder.finishEncoder (h : SameEncoder s s') : Lockstep s.finishEncoder s'.finishEncoder := by
  have hlast := h.lastFlush
  rcases s.finishEncoder_cases with ⟨hop, e⟩ | ⟨hop, e⟩ <;>
    rcases s'.finishEncoder_cases with ⟨hop', e'⟩ | ⟨hop', e'⟩ <;> rw [e, e']
  · refine .complete hlast.wlen fun a ha => ?_
    have hbyte : s.lastFlush.encodedByte a = s.lastFlush.out.read .out a := if_pos (s.lastFlush_op.trans hop)
    have hbyte' : s'.lastFlush.encodedByte a = s'.lastFlush.out.read .out a := if_pos (s'.lastFlush_op.trans hop')
    exact hbyte'.symm.trans ((hlast.encoded a ha).trans hbyte)
  · exact absurd (h.op.trans hop) hop'
  · exact absurd (h.op.symm.trans hop') hop
  · refine .pad rfl rfl { hlast with } ⟨hlast.wlen, fun a ha => ?_⟩
    have hbyte : s.lastFlush.encodedByte a = s.lastFlush.work.read .work a := if_neg (s.lastFlush_op ▸ hop)
    have hbyte' : s'.lastFlush.encodedByte a = s'.lastFlush.work.read .work a := if_neg (s'.lastFlush_op ▸ hop')
    exact hbyte'.symm.trans ((hlast.encoded a ha).trans hbyte)

theorem SameEncoder.engineStep_compress (h : SameEncoder s s') (hn : s.n = s.ilenCmd) (hp : s.phase = .compress)
    (hp' : s'.phase = .compress) : NextInLockstep (engineStep s) (engineStep s') := by
  rw [engineStep_of_compress hp, engineStep_of_compress hp']
  refine Lockstep.next ?_
  unfold State.compressStep
  rw [h.pos, h.n]
  split
  next hpos =>
    exact .compress (s.detect_emitToken_phase.trans hp) (s'.detect_emitToken_phase.trans hp') (h.token hn hpos)
  next => exact h.finishEncoder

theorem SameJob.startEncoder (h : SameJob s s') : Lockstep s.startEncoder s'.startEncoder := by
  rcases Nat.lt_or_ge s.ilenCmd.toNat Config.minIn with hshort | hmin
  · rw [State.startEncoder_of_short hshort, State.startEncoder_of_short (h.ilenCmd ▸ hshort)]
    exact .raise _ _ _
  · rcases Nat.lt_or_ge Config.maxIn s.ilenCmd.toNat with hlarge | hmax
    · rw [State.startEncoder_of_large hmin hlarge, State.startEncoder_of_large (h.ilenCmd ▸ hmin) (h.ilenCmd ▸ hlarge)]
      exact .raise _ _ _
    · rw [State.startEncoder_of_accepted hmin hmax,
        State.startEncoder_of_accepted (h.ilenCmd ▸ hmin) (h.ilenCmd ▸ hmax), h.ilenCmd]
      refine .compress (State.emit_phase _ _) (State.emit_phase _ _) (SameEncoder.emit ?_ _)
      exact { h with
        ilenCmd := rfl, n := rfl, pos := rfl, gflags := rfl, gcount := rfl, gbuf := rfl, wlen := rfl
        encoded := fun a ha => absurd ha (Nat.not_lt_zero a) }

/-! ### The container encoder (R228 to R232) -/

theorem SameJob.loadRaw (h : SameJob s s') : Lockstep s.loadRaw s'.loadRaw := by
  unfold State.loadRaw
  rw [h.ilenCmd]
  split
  next => exact .raise _ _ _
  next =>
    refine .pad rfl rfl { h with ilenCmd := rfl } ⟨rfl, fun a ha => ?_⟩
    rw [Memory.read_copyFrom, Memory.read_copyFrom, if_pos ⟨Nat.zero_le a, by simpa using ha⟩,
      if_pos ⟨Nat.zero_le a, by simpa using ha⟩]
    exact h.inp _ (by simpa using ha)

theorem SameBody.padStep (h : SameBody s s') (hjob : SameJob s s') (hbody : s.BodyLegal) :
    SameChain s.padStep s'.padStep := by
  have hblen : s'.padStep.blen = s.padStep.blen := congrArg (fun b : Word => b + BitVec.ofNat 32 (padCount b.toNat)) h.blen
  have htag : s'.padStep.tag = s.padStep.tag := by rw [State.padStep_tag, State.padStep_tag, hjob.mode]
  refine { blen := hblen, tag := htag, work := fun a ha => ?_, key := ?_
           seed := congrArg (BitVec.setWidth 24) hjob.ilenCmd, xp := congrArg regionStart htag }
  · rw [State.padStep_blen hbody] at ha
    rw [State.padStep_read_work, State.padStep_read_work, h.blen]
    split
    next => rfl
    next hne => exact h.work a (by omega)
  · rw [State.padStep_key, State.padStep_key, hjob.ilenCmd]

theorem SameBody.engineStep_pad (h : SameBody s s') (hjob : SameJob s s') (hbody : s.BodyLegal) (hp : s.phase = .pad)
    (hp' : s'.phase = .pad) : NextInLockstep (engineStep s) (engineStep s') := by
  rw [engineStep_of_pad hp, engineStep_of_pad hp']
  exact (Lockstep.encipher rfl rfl (h.padStep hjob hbody)).next

theorem SameChain.returnArchive (h : SameChain s s') : Lockstep s.returnArchive s'.returnArchive := by
  have hheader : s'.headerBytes = s.headerBytes := by rw [State.headerBytes, State.headerBytes, h.tag, h.seed]
  have hlength : s.headerBytes.length = 4 := by
    unfold State.headerBytes
    split <;> rfl
  refine .complete (congrArg (· + 4) h.blen) fun a ha => ?_
  have hend : a < 4 + s.blen.toNat := by
    rw [BitVec.toNat_add, Nat.add_comm] at ha
    exact ha.trans_le (Nat.mod_le _ _)
  rw [Memory.read_copyFrom, Memory.read_copyFrom, Memory.read_writeAll, Memory.read_writeAll, h.blen, hheader]
  split
  next hbody => exact h.work _ (by omega)
  next hhead => rw [dif_pos (by omega), dif_pos (by omega)]

theorem SameChain.engineStep_encipher (h : SameChain s s') (hregion : s.RegionLegal) (hp : s.phase = .encipher)
    (hp' : s'.phase = .encipher) : NextInLockstep (engineStep s) (engineStep s') := by
  rw [engineStep_of_encipher hp, engineStep_of_encipher hp']
  refine Lockstep.next ?_
  unfold State.encipherStep
  rw [h.xp, h.blen]
  split
  next hx => exact .encipher hp hp' (h.encipherBlock hregion hx)
  next => exact h.returnArchive

end

end Sys2Proof.Machine
end

section
/-! Lockstep of whole commands (O32): they start alike, take the same steps, and end together. -/

namespace Sys2Proof.Machine

/-- The invariants of a run (R23 to R29, R66, R141). -/
def State.RunLegal (s : State) : Prop := s.DecoderLegal ∧ s.EncoderLegal ∧ s.ChainLegal

theorem engineStep_runLegal {s t : State} (h : engineStep s = .next t) (hs : s.RunLegal) : t.RunLegal := by
  obtain ⟨hdecoder, hencoder, hchain⟩ := hs
  have hmove := engineStep_move h
  exact ⟨hmove.decoderLegal hdecoder, hmove.encoderLegal hencoder, hmove.chainLegal hencoder hchain⟩

theorem CommandMove.runLegal {s t : State} (h : CommandMove s t) : t.RunLegal :=
  ⟨fun hp => absurd hp h.phase_ne_tokens, h.encoderLegal, h.chainLegal⟩

theorem State.RunLegal.historyView {s : State} (h : s.RunLegal) (hp : s.phase = .tokens) : s.HistoryView := by
  obtain ⟨hdecoder, -⟩ := h
  obtain ⟨-, -, -, hview⟩ := s.decoderLegal_iff.1 hdecoder hp
  exact hview

theorem State.RunLegal.input {s : State} (h : s.RunLegal) (hp : s.phase = .compress) : s.n = s.ilenCmd := by
  obtain ⟨-, hencoder, -⟩ := h
  obtain ⟨hn, -⟩ := hencoder.compressLegal hp
  exact hn

/-- Whatever is next, both runs take the same step. -/
theorem Lockstep.engineStep {s s' : State} (h : Lockstep s s') (hs : s.RunLegal) (hs' : s'.RunLegal) :
    NextInLockstep (engineStep s) (engineStep s') := by
  obtain ⟨-, -, hchain⟩ := id hs
  obtain ⟨hregion, hbody⟩ := s.chainLegal_iff.1 hchain
  cases h with
  | ended hp hp' h =>
    have hstill {u : State} (hu : u.phase = .idle) : Machine.engineStep u = .next u := by simp [Machine.engineStep, hu]
    rw [hstill hp, hstill hp']
    exact (Lockstep.ended hp hp' h).next
  | envelope hp hp' hop h => exact h.engineStep_envelope hp hp' hop
  | decipher hp hp' hop hop' h => exact h.engineStep_decipher (hregion (.inl hp)) hp hp' hop hop'
  | header hp hp' h => exact h.engineStep_header hp hp'
  | tokens hp hp' h => exact h.engineStep_tokens (hs.historyView hp) (hs'.historyView hp') hp hp'
  | compress hp hp' h => exact h.engineStep_compress (hs.input hp) hp hp'
  | pad hp hp' hjob h => exact h.engineStep_pad hjob (hbody hp) hp hp'
  | encipher hp hp' h => exact h.engineStep_encipher (hregion (.inr hp)) hp hp'

theorem Lockstep.engineRun {s s' : State} (h : Lockstep s s') (hs : s.RunLegal) (hs' : s'.RunLegal) (k : Nat) :
    Lockstep (engineRun k s) (engineRun k s') := by
  induction k generalizing s s' with
  | zero => exact h
  | succ k ih =>
    obtain ⟨t, t', e, e', ht⟩ := h.engineStep hs hs'
    simp only [Machine.engineRun, e, e']
    exact ih ht (engineStep_runLegal e hs) (engineStep_runLegal e' hs')

theorem Lockstep.outcome {t t' : State} (h : Lockstep t t') (hp : t.phase = .idle) :
    t'.phase = .idle ∧ SameOutcome t t' := by
  cases h with
  | ended _ hp' h => exact ⟨hp', h⟩
  | _ hq => cases hp.symm.trans hq

/-- A command starts in lockstep on any two blocks that are not busy and hold the same input (R250 to R254, R258). -/
theorem exec_command_lockstep {i : Instr} {s s' : State} (hi : i.context = .command) (hn : i ≠ .nop)
    (hb : s.busy = false) (hb' : s'.busy = false) (hlen : s'.inLen = s.inLen)
    (hinp : ∀ a < s.inLen.toNat, s'.inp.read .inp a = s.inp.read .inp a) :
    NextInLockstep (exec i s) (exec i s') := by
  have hjob (op : BitVec 3) (mode : BitVec 1) : SameJob (s.start op mode) (s'.start op mode) := ⟨rfl, rfl, hlen, hinp⟩
  have hstart (op : BitVec 3) (mode : BitVec 1) (run : State → State)
      (h : Lockstep (run (s.start op mode)) (run (s'.start op mode))) :
      NextInLockstep (.next (s.startCommand op mode run)) (.next (s'.startCommand op mode run)) := by
    rw [State.startCommand_of_not_busy hb, State.startCommand_of_not_busy hb']
    exact h.next
  cases i with
  | lit | refM | refL | refS | flags | lzhdr | lzhdrx | env17 | env04 | envUnknown => cases hi
  | nop => exact absurd rfl hn
  | lzDec mode => exact hstart _ _ _ (.header rfl rfl ⟨hlen, fun a ha => hinp a ha⟩)
  | lzEnc mode => exact hstart _ _ _ (hjob _ _).startEncoder
  | ctDec mode => exact hstart _ _ _ (.envelope rfl rfl rfl { hjob opCtDec mode with })
  | ctEncRaw => exact hstart _ _ _ (hjob _ _).loadRaw
  | ctEncCompressed => exact hstart _ _ _ (hjob _ _).startEncoder
  | reservedOp5 mode => exact hstart _ _ _ (.raise _ _ _)
  | reservedOp6 mode => exact hstart _ _ _ (.raise _ _ _)
  | reservedOp7 mode => exact hstart _ _ _ (.raise _ _ _)

/-- Settles O32: the two runs start in lockstep and stay so, and the one ends when the other does. -/
theorem commandsArePureFunctions : Obligations.CommandsArePureFunctions := by
  intro i s s' u u' t hi hn hb hb' hlen hinp hu hu' ht
  have hlegal {r v : State} (hr : r.busy = false) (hv : exec i r = .next v) : v.RunLegal := by
    rcases exec_command_of_not_busy hi hr hv with ⟨hnop, -⟩ | ⟨-, hmove⟩
    · exact absurd hnop hn
    · exact hmove.runLegal
  have hsame : Lockstep u u' := by
    obtain ⟨v, v', hv, hv', h⟩ := exec_command_lockstep hi hn hb hb' hlen hinp
    rw [hu] at hv
    rw [hu'] at hv'
    cases hv
    cases hv'
    exact h
  obtain ⟨hidle, k, rfl⟩ := ht
  obtain ⟨hidle', hout⟩ := (hsame.engineRun (hlegal hb hu) (hlegal hb' hu') k).outcome hidle
  exact ⟨_, ⟨hidle', k, rfl⟩, hout.status, hout.errcode, hout.outLen, hout.out⟩

end Sys2Proof.Machine
end

section
/-! `InvalidArchive` is raised by the envelope's step, exactly for an invalid archive (O23), and `BadCommand` by the reserved
values of `OP` (O30). -/

namespace Sys2Proof.Machine

/-! ### The header of the archive (R220, R221) -/

section
variable {s : State}

/-- The seed that the header of the archive `IN[0 .. alen)` declares (R110). -/
def State.declaredSeed (s : State) : BitVec 24 := le24 (s.inp.read .inp 1) (s.inp.read .inp 2) (s.inp.read .inp 3)

theorem State.archiveWindow_length (s : State) : s.archiveWindow.length = min 4 s.ilenCmd.toNat := by
  simp [State.archiveWindow]

theorem decode_envelope_short {bytes : List Byte} (h : bytes.length < 4) : decode .envelope bytes = .reject .short := by
  match bytes, h with
  | [], _ => rfl
  | [_], _ => rfl
  | [_, _], _ => rfl
  | [_, _, _], _ => rfl

theorem engineStep_of_short_archive (hp : s.phase = .envelope) (hlen : s.ilenCmd.toNat < 4) :
    engineStep s = .next (s.raise .invalidArchive) := by
  have hwindow : s.archiveWindow.length < 4 := by
    rw [State.archiveWindow_length]
    omega
  rw [engineStep_of_envelope hp, decode_envelope_short hwindow]
  rfl

theorem engineStep_of_archive_header (hp : s.phase = .envelope) (hlen : 4 ≤ s.ilenCmd.toNat) :
    engineStep s = exec (decodeEnvelope (s.inp.read .inp 0) s.declaredSeed) s := by
  have hwindow : s.archiveWindow =
      [s.inp.read .inp 0, s.inp.read .inp 1, s.inp.read .inp 2, s.inp.read .inp 3] := by
    rw [State.archiveWindow, Nat.min_eq_left hlen]
    rfl
  rw [engineStep_of_envelope hp, hwindow]
  rfl

/-! ### What is left of R271 under each tag -/

theorem State.archiveInvalid_of_short (hlen : s.ilenCmd.toNat < 4) : s.ArchiveInvalid := .inl hlen

theorem State.archiveInvalid_of_unknown_tag (hlz : s.inp.read .inp 0 ≠ Config.tagLz)
    (hraw : s.inp.read .inp 0 ≠ Config.tagRaw) : s.ArchiveInvalid :=
  .inr (.inl ⟨hlz, hraw⟩)

theorem State.archiveInvalid_iff_of_tagLz (hlen : 4 ≤ s.ilenCmd.toNat) (htag : s.inp.read .inp 0 = Config.tagLz) :
    s.ArchiveInvalid ↔
      (s.ilenCmd.toNat < 5 ∨ s.inp.read .inp 4 ≠ Config.lzMagic) ∨ (s.ilenCmd.toNat - 4) % 4 ≠ 0 := by
  simp [State.ArchiveInvalid, Config.lzMagic, htag, Config.tagLz, Nat.not_lt.2 hlen]

theorem State.archiveInvalid_iff_of_tagRaw (hlen : 4 ≤ s.ilenCmd.toNat) (htag : s.inp.read .inp 0 = Config.tagRaw) :
    s.ArchiveInvalid ↔
      s.declaredSeed.toNat ≠ s.ilenCmd.toNat - 4 ∨ (s.ilenCmd.toNat - 4) % 4 ≠ 0 := by
  simp [State.ArchiveInvalid, State.declaredSeed, htag, Config.tagRaw, Nat.not_lt.2 hlen, or_comm]

/-! ### The verdict of the envelope's step (R222 to R224, R227, R271) -/

/-- `t` is `s` after its archive was judged: refused if it is invalid, else on its way through the deciphering chain. -/
def State.Judged (s t : State) : Prop :=
  (s.ArchiveInvalid ∧ s.EndedBy .invalidArchive t) ∨
    (¬ s.ArchiveInvalid ∧ t.phase = .decipher ∧ t.status = s.status ∧ t.errcode = s.errcode)

theorem State.opened_raise_judged (h : s.ArchiveInvalid) (tag : Byte) (seed : BitVec 24) :
    s.Judged ((s.opened tag seed).raise .invalidArchive) :=
  .inl ⟨h, State.raise_endedBy _ rfl rfl⟩

/-- The last test: with only the whole blocks in question, `startDecipher` decides. -/
theorem State.opened_startDecipher_judged (tag : Byte) (seed : BitVec 24) (hlen : 4 ≤ s.ilenCmd.toNat)
    (h : s.ArchiveInvalid ↔ (s.ilenCmd.toNat - 4) % 4 ≠ 0) : s.Judged (s.opened tag seed).startDecipher := by
  rw [← State.opened_blen_toNat tag seed hlen] at h
  rcases (s.opened tag seed).startDecipher_cases with ⟨hblocks, e⟩ | ⟨hblocks, e⟩
  · rw [e]
    exact State.opened_raise_judged (h.2 hblocks) tag seed
  · rw [e]
    exact .inr ⟨fun hinvalid => h.1 hinvalid hblocks, rfl, rfl, rfl⟩

theorem execEnv17_judged (hlen : 4 ≤ s.ilenCmd.toNat) (htag : s.inp.read .inp 0 = Config.tagLz) (seed : BitVec 24) :
    ∃ t, exec (.env17 seed) s = .next t ∧ s.Judged t := by
  have hinvalid := State.archiveInvalid_iff_of_tagLz hlen htag
  have hblen := State.opened_blen_toNat Config.tagLz seed hlen
  have hmagic : ((s.opened Config.tagLz seed).blen.toNat < 1 ∨
      (s.opened Config.tagLz seed).work.read .work 0 ≠ Config.lzMagic) ↔
      (s.ilenCmd.toNat < 5 ∨ s.inp.read .inp 4 ≠ Config.lzMagic) := by
    rcases Nat.lt_or_ge s.ilenCmd.toNat 5 with hempty | hone
    · exact iff_of_true (.inl (by omega)) (.inl hempty)
    · rw [State.opened_read_work_inside Config.tagLz seed (by omega), hblen]
      exact or_congr_left (by omega)
  refine ⟨_, rfl, ?_⟩
  rw [State.openArchive_of_header _ _ _ hlen]
  simp only [hmagic]
  split
  next hbad => exact State.opened_raise_judged (hinvalid.2 (.inl hbad)) _ _
  next hgood => exact State.opened_startDecipher_judged _ _ hlen (hinvalid.trans (or_iff_right hgood))

theorem execEnv04_judged (hlen : 4 ≤ s.ilenCmd.toNat) (htag : s.inp.read .inp 0 = Config.tagRaw) :
    ∃ t, exec (.env04 s.declaredSeed) s = .next t ∧ s.Judged t := by
  have hinvalid := State.archiveInvalid_iff_of_tagRaw hlen htag
  have hseed : (s.opened Config.tagRaw s.declaredSeed).seed = s.declaredSeed := rfl
  refine ⟨_, rfl, ?_⟩
  rw [State.openArchive_of_header _ _ _ hlen]
  simp only [hseed, State.opened_blen_toNat _ _ hlen]
  split
  next hbad => exact State.opened_raise_judged (hinvalid.2 (.inl hbad)) _ _
  next hgood => exact State.opened_startDecipher_judged _ _ hlen (hinvalid.trans (or_iff_right hgood))

/-- The envelope's step judges the archive, tag by tag. -/
theorem engineStep_judged (hp : s.phase = .envelope) : ∃ t, engineStep s = .next t ∧ s.Judged t := by
  rcases Nat.lt_or_ge s.ilenCmd.toNat 4 with hshort | hlen
  · exact ⟨_, engineStep_of_short_archive hp hshort,
      .inl ⟨State.archiveInvalid_of_short hshort, State.raise_endedBy _ rfl rfl⟩⟩
  · rw [engineStep_of_archive_header hp hlen, decodeEnvelope]
    split
    next hlz => exact execEnv17_judged hlen hlz _
    next hlz =>
      split
      next hraw => exact execEnv04_judged hlen hraw
      next hraw =>
        obtain ⟨-, t, ht, hended⟩ := unknownTagRaisesInvalidArchive _ s.declaredSeed s hlz hraw
        exact ⟨t, ht, .inl ⟨State.archiveInvalid_of_unknown_tag hlz hraw, hended⟩⟩

end

/-! ### No other phase raises `InvalidArchive` (R271) -/

/-- Outside the envelope's step a move keeps `ERRCODE`, clears it (R255), or writes the code of R272 or R273. -/
theorem EngineMove.errcode {s t : State} (h : EngineMove s t) (hp : s.phase ≠ .envelope) :
    t.errcode = s.errcode ∨ t.errcode = 0 ∨ t.errcode = 2 ∨ t.errcode = 3 := by
  cases h with
  | archiveError u hp' => exact absurd hp' hp
  | openArchive tag seed hp' => exact absurd hp' hp
  | streamError u e hp' hu he =>
    rcases he with rfl | rfl
    · exact .inr (.inr (.inl rfl))
    · exact .inr (.inr (.inr rfl))
  | returnWork => exact .inr (.inl rfl)
  | endDecoding => exact .inr (.inl rfl)
  | endEncoding => exact .inr (.inl rfl)
  | returnArchive => exact .inr (.inl rfl)
  | reference k len disp =>
    exact .inl (congrArg State.errcode (((s.classified.advance k).setOperands len disp).copyBytes_frame len.toNat) :)
  | compressToken => exact .inl (congrArg State.errcode s.detect_emitToken_frame :)
  | bodyReady => exact .inl (congrArg State.errcode s.lastFlush_frame :)
  | _ => exact .inl rfl

/-- Settles O23: the envelope's step judges the archive, and no other move of the engine writes code 1. -/
theorem invalidArchiveExactlyWhen : Obligations.InvalidArchiveExactlyWhen := by
  refine ⟨fun s hturns hp => ?_, fun s t hp herr hstep => ?_⟩
  · rw [step_of_no_turns hturns]
    obtain ⟨t, ht, ⟨hbad, hended⟩ | ⟨hgood, hstarted⟩⟩ := engineStep_judged hp
    · exact ⟨t, ht, fun _ => hended, fun h => absurd hbad h⟩
    · exact ⟨t, ht, fun h => absurd h hgood, fun _ => hstarted⟩
  · rcases (engineStep_move hstep).errcode hp with hsame | hcode | hcode | hcode
    · rwa [hsame]
    all_goals rw [hcode]; decide

/-! ### The reserved values of `OP` (R258, R278) -/

theorem decodeCommand_of_reserved {v : Word} (h : 5 ≤ (v.extractLsb' 0 3).toNat) :
    decodeCommand v = .reservedOp5 (v.extractLsb' 8 1) ∨ decodeCommand v = .reservedOp6 (v.extractLsb' 8 1) ∨
      decodeCommand v = .reservedOp7 (v.extractLsb' 8 1) := by
  have hop : ∀ op : BitVec 3, 5 ≤ op.toNat → op = 5 ∨ op = 6 ∨ op = 7 := by decide
  rcases hop _ h with hop | hop | hop <;> simp [decodeCommand, hop]

/-- Settles O30: each of the three starts and raises `BadCommand` at once, and a command word with such an `OP` is one of
them. -/
theorem reservedOpRaisesBadCommand : Obligations.ReservedOpRaisesBadCommand := by
  intro mode s v hb
  have hraise (op : BitVec 3) (mode : BitVec 1) :
      s.EndedBy .badCommand (s.startCommand op mode fun s => s.raise .badCommand) ∧
        (s.startCommand op mode fun s => s.raise .badCommand).errcode = 7 := by
    rw [State.startCommand_of_not_busy hb]
    exact ⟨State.raise_endedBy _ rfl rfl, rfl⟩
  refine ⟨⟨_, rfl, hraise 5 mode⟩, ⟨_, rfl, hraise 6 mode⟩, ⟨_, rfl, hraise 7 mode⟩, fun hop => ?_⟩
  rcases decodeCommand_of_reserved hop with e | e | e <;> rw [e]
  · exact ⟨_, rfl, hraise 5 _⟩
  · exact ⟨_, rfl, hraise 6 _⟩
  · exact ⟨_, rfl, hraise 7 _⟩

end Sys2Proof.Machine
end

section
/-! The engine's turn of an idle block (O37). -/

namespace Sys2Proof.Machine

/-- An engine turn is used up before the engine moves. -/
theorem step_of_engine_turn {s : State} {rest : List Turn} (h : s.turns = .engine :: rest) :
    step s = engineStep { s with turns := rest } := by
  simp [step, takeTurn, h]

theorem engineStep_of_idle {s : State} (h : s.phase = .idle) : engineStep s = .next s := by
  simp [engineStep, h]

/-- Settles O37: in either case the engine moves, and the list of turns is not part of its phase. -/
theorem idleBlockDoesNothing : Obligations.IdleBlockDoesNothing := by
  refine fun s hp => ⟨fun hturns => ?_, fun rest hturns => ?_⟩
  · rw [step_of_no_turns hturns, engineStep_of_idle hp]
  · rw [step_of_engine_turn hturns]
    exact engineStep_of_idle hp

end Sys2Proof.Machine
end
